-- ==== Sys2Proof/Word.lean ====
section
/-! DEFINITION. The plain words of the model: the two halves, pairs of one thing per half, and sparse maps
held as sorted lists. Nothing here is behaviour of the device. -/

namespace Sys2Proof

/-- A byte. -/
abbrev Byte := BitVec 8
/-- A register word. -/
abbrev Word := BitVec 32
/-- A 64-bit register. -/
abbrev DWord := BitVec 64
/-- The 64 data bytes of a line; byte k at bits [8k+7:8k] (R123). -/
abbrev LineData := BitVec 512
/-- The 128 sideband bits of a stored line (R124). -/
abbrev Sideband := BitVec 128

/-- The two dies of the package (R11): West reads 0 and East 1. -/
inductive Half where
  | west
  | east
  deriving DecidableEq, Repr

/-- The other half. -/
def Half.other : Half → Half
  | .west => .east
  | .east => .west

/-- The number of a half, as `PAGE_ID.HALF` shows it (R11). -/
def Half.num : Half → Nat
  | .west => 0
  | .east => 1

/-- One thing for each half. -/
structure Pair (α : Type) where
  west : α
  east : α
  deriving DecidableEq, Repr

/-- The half's own copy. -/
def Pair.get {α : Type} (p : Pair α) : Half → α
  | .west => p.west
  | .east => p.east

/-- Replace the half's own copy. -/
def Pair.set {α : Type} (p : Pair α) (h : Half) (a : α) : Pair α :=
  match h with
  | .west => { p with west := a }
  | .east => { p with east := a }

/-- A sparse map from numbers: pairs with strictly rising keys. -/
abbrev SMap (β : Type) := List (Nat × β)

end Sys2Proof
end

