-- ==== Sys2Proof/Syntax.lean ====
section
/-! DEFINITION. The commands of the FSC-9418: one constructor of `Instr` per row of the opcode table, with the
operands that the environment supplies. The table gives no bits, so a command is syntax only. -/

namespace Sys2Proof

/-- Who made a register access (R345, R355). -/
inductive Origin where
  /-- Hardware, by island number. -/
  | hw (island : Nat)
  /-- The management function on a global port 0 to 7. -/
  | host (gport : Nat)
  /-- A logical device's own host through its fence and event views. -/
  | ld (n : Nat)
  /-- The BMC through the target of a die. -/
  | bmc (die : Half)
  /-- A firmware agent of a half. -/
  | fw (half : Half) (agent : Nat)
  deriving DecidableEq, Repr

/-- `FORD.STATUS.STATE` (R25). -/
inductive FordState where
  | absent | training | upFull | upHalf | retraining | lost
  deriving DecidableEq, Repr

/-- The kinds of CXL event record the device writes (R78). -/
inductive CxlEventKind where
  | generalMedia | dram | memoryModule | dynamicCapacity | vendor
  deriving DecidableEq, Repr

/-- Tile states (R99, R100). -/
inductive TileState where
  | blank | dramClean | dramDirty | nandOnly | rising | sinking | dark | lost
  deriving DecidableEq, Repr

/-- Frame states (R97). -/
inductive FrameState where
  | freeFmt | freeRaw | used | retired | diag
  deriving DecidableEq, Repr

/-- `MEMC.STATUS.SUBk_STATE` (R177). -/
inductive SubState where
  | absent | training | up | selfRefresh | replay | retraining | freqChange | failed | disabled
  deriving DecidableEq, Repr

/-- `LAND.STATUS.STATE` (R192). -/
inductive LandState where
  | enabled | draining | disabled | noWays
  deriving DecidableEq, Repr

/-- `FERY.STATUS.LINK` (R222). -/
inductive LinkState where
  | off | training | up | session | retraining | lost
  deriving DecidableEq, Repr

/-- Stripe states (R238). -/
inductive StripeState where
  | stale | erasing | erased | vouched | opened | full | system | reserve | bad
  deriving DecidableEq, Repr

/-- Key slot states (R254). -/
inductive SlotState where
  | empty | active | sweeping | erasing | retired
  deriving DecidableEq, Repr

/-- Power states (R299). -/
inductive PowerState where
  | on | trim | lastFerry | moored | off
  deriving DecidableEq, Repr

/-- `SUPV.STATUS.SEQ` (R387). -/
inductive SupvSeq where
  | off | standby | up | holdRelease | on | down | moored | tripped
  deriving DecidableEq, Repr

/-- How a NAND operation ends, as the part and the LDPC decoder give it (R227, R231): the LUN's failure report and the
plane it names, failed codewords 4q + c, largest iteration count, bits corrected, retry level, status byte, elapsed
microseconds, and the bytes of a raw page that read back changed. -/
structure NandEnd where
  fail : Bool
  plane : Nat
  bad : BitVec 16
  iter : Nat
  bits : Nat
  level : Nat
  sr : Nat
  elapsed : Nat
  flips : List (Nat × Byte)
  deriving DecidableEq, Repr

namespace Machine

/-! ### Operands that the machine stores -/

/-- A line as a medium stores it: 512 data bits and the sideband (R123, R124). -/
structure SLine where
  data : LineData := 0
  side : Sideband := 0
  deriving DecidableEq, Repr

/-- A tile as NAND holds it: 1,024 groups of 64 bytes of sector ciphertext and the trailer (R92, R263). -/
structure TileImg where
  data : List LineData := []
  tile : Nat := 0
  sailing : Nat := 0
  slot : BitVec 10 := 0
  phase : Bool := false
  ld : BitVec 7 := 0
  wcount : Nat := 0
  poison : BitVec 1024 := 0
  cmac : BitVec 128 := 0
  deriving DecidableEq, Repr

/-- An image slot of the boot flash (R287): the 512 header bytes and the body. -/
structure Image where
  header : List Byte
  body : List Byte
  deriving DecidableEq, Repr

/-- An SRAM row that a sweep finds in error (R138): unit 7 to 9, row, syndrome, and 0 corrected, 1 uncorrectable, 2 both
ledger copies uncorrectable. -/
structure SramErr where
  unit : Nat
  row : Nat
  sy : Nat
  sev : Nat
  deriving DecidableEq, Repr

/-- A DIMM as its SPD describes it (R154, R156): whether the SPD answers, passes its checksum and describes a supported
module type, package ranks, stack height, device density in Gb, and tRFC1 in ns. -/
structure Dimm where
  good : Bool
  ranks : Nat
  stack : Nat
  density : Nat
  trfc : Nat
  deriving DecidableEq, Repr

/-- What a cold start or a wake meets in its surroundings (R156, R171, R150, R323): the DIMMs, slot s of channel c at
2c + s; the training step that fails, by subchannel; the trained arrays of both sets and the case temperature, by channel;
subchannels that fail the self-test; error masks on seal lines, by frame; and whether the save SRAM or both copies of the
voyage record fail their check. -/
structure ColdEnv where
  dimms : List (Option Dimm)
  fails : SMap Nat
  arrA : List (SMap Word)
  arrB : List (SMap Word)
  temps : List Nat
  selftest : List Nat
  seals : SMap SLine
  saveBad : Bool
  recordBad : Bool
  deriving DecidableEq, Repr

end Machine

/-- The commands of the opcode table, one constructor per row. An operand is what the row's rule leaves to whoever sends the
command or to the parts around the device: an origin, a half, a register's value, or what a part, a timer or a medium
answers. -/
inductive Instr where
  /-- `HOST_READ` (R26): A CXL.mem read request arrives at a port and is decoded, looked up and served from the Landing cache, DRAM or the other half. -/
  | hostRead (h : Half) (port sub ldid tag hpa : Nat)
  /-- `HOST_WRITE` (R28): A full-line CXL.mem write arrives at a port and is stamped, placed in the Landing cache and queued for the Ferry link. -/
  | hostWrite (h : Half) (port sub ldid tag hpa : Nat) (data : LineData)
  /-- `HOST_PARTIAL_WRITE` (R128): A partial CXL.mem write arrives and is merged with the stored line before acceptance. -/
  | hostPartialWrite (h : Half) (port sub ldid tag hpa : Nat) (data : LineData) (mask : BitVec 64)
  /-- `MANIFEST_ENTRY_FETCH_DONE` (R27): A Manifest entry fetched from DRAM after a cache miss returns and confirms or discards the speculative read. -/
  | manifestEntryFetchDone (h : Half) (verdict loc cw sy : Nat)
  /-- `DRAM_READ_DONE` (R26): A DRAM read burst completes and the line is decrypted, decoded and checked. -/
  | dramReadDone (h : Half) (err : Machine.SLine)
  /-- `HEAL_WRITEBACK` (R137): The conditional write-back of a corrected line is issued after its delay, or dropped if the line was rewritten. -/
  | healWriteback (h : Half)
  /-- `FORD_FLIT_BAD` (R22): A Ford flit arrives with a bad FCRC or an FSEQ gap and a replay request is sent. -/
  | fordFlitBad (h : Half)
  /-- `FORD_REPLAY_REQUEST` (R22): A Ford replay request arrives and the sender resends from the flit after the named FSEQ. -/
  | fordReplayRequest (h : Half) (m : Nat)
  /-- `FORD_LANE_REPAIR` (R19): A Ford lane fails training or exceeds its error threshold and is repaired onto a redundant lane. -/
  | fordLaneRepair (h : Half) (m : Nat)
  /-- `FORD_RETRAIN_DONE` (R19): A Ford module retrain ends, leaving the Ford up full, up half or lost. -/
  | fordRetrainDone (lanes : List Nat)
  /-- `FORD_LOST` (R19): Both modules are down or no good flit arrives for 200 µs, so the Ford is declared lost and the device goes Split. -/
  | fordLost
  /-- `FORD_RETRAIN_CMD` (R25): A write of 1 to FORD.CTRL.RETRAIN retrains every enabled module. -/
  | fordRetrainCmd (org : Origin) (h : Half)
  /-- `FORD_MODULE_TRAIN_DONE` (R25): A module enabled by a commit finishes training and joins, or stays down with FORD_DEGRADED. -/
  | fordModuleTrainDone (m lanesWest lanesEast : Nat)
  /-- `FORD_TRAIN_RETRY` (R334): Once a second while the Ford is lost, its island retries training. -/
  | fordTrainRetry (lanes : List Nat)
  /-- `SAILING_LENGTH_ELAPSED` (R38): The beacon master's timer reaches the sailing length and the master opens the next sailing and sends BEACON_OPEN. -/
  | sailingLengthElapsed (h : Half)
  /-- `BEACON_OPEN` (R24): The follower receives BEACON_OPEN, opens the sailing and returns BEACON_ECHO. -/
  | beaconOpen (h : Half)
  /-- `BEACON_ECHO` (R38): The master receives BEACON_ECHO and learns that both halves have opened the sailing. -/
  | beaconEcho (h : Half)
  /-- `RESERVATION_RECORD_DONE` (R408): A new sailing reservation record becomes durable and takes effect. -/
  | reservationRecordDone (h : Half)
  /-- `SEAL_READY` (R40): A half receives the other half's SEAL_READY for a sailing, which may complete the seal. -/
  | sealReady (h : Half)
  /-- `FENCE` (R47): A write of a token to LDP.FENCE rings a fence whose target is the LD's fence mark. -/
  | fence (org : Origin) (h : Half) (c : Nat) (token : Word)
  /-- `FENCE_TIMEOUT` (R50): A fence whose target stays unsealed for SAIL.FENCE_TIMEOUT completes FAILED with reason TIMEOUT. -/
  | fenceTimeout (h : Half) (c : Nat)
  /-- `GPF_PHASE1` (R61): A GPF phase 1 request is acknowledged at once. -/
  | gpfPhase1
  /-- `GPF_PHASE2` (R61): A GPF phase 2 request acts as a device-wide fence on the master's current sailing. -/
  | gpfPhase2
  /-- `GPF_LATE` (R61): GPF phase 2 not done within SAIL.GPF_TIME is completed anyway and GPF_LATE is raised. -/
  | gpfLate
  /-- `ACCEPT_LOCAL` (R64): ACCEPT_LOCAL written to SAIL.CMD opens access-refused LDs from the local NAND image, or is refused. -/
  | acceptLocal (org : Origin) (h : Half)
  /-- `MEM_RD` (R29): The home half receives a cross-half read over the Ford and serves it as a local read. -/
  | memRd (h : Half)
  /-- `MEM_WR` (R29): The home half receives a cross-half full-line write over the Ford and accepts it. -/
  | memWr (h : Half)
  /-- `MEM_WRP` (R29): The home half receives a cross-half partial write with its byte mask over the Ford and accepts it. -/
  | memWrp (h : Half)
  /-- `MEM_RD_DATA` (R30): The port's half receives cross-half read data and returns it after the visibility floor. -/
  | memRdData (h : Half)
  /-- `MEM_WR_ACK` (R29): The port's half receives acceptance of cross-half writes and returns completions. -/
  | memWrAck (h : Half)
  /-- `REG_RD` (R345): A remote register read arrives over the Ford in class C3 and is answered with REG_RESP. -/
  | regRd (h : Half)
  /-- `REG_WR` (R345): A remote register write arrives over the Ford in class C3 and is applied and journaled by the half holding the page. -/
  | regWr (h : Half) (fail : Option Nat)
  /-- `REG_RESP` (R345): The response to a remote register access arrives over the Ford. -/
  | regResp (h : Half) (fail : Option Nat)
  /-- `MGMT_HEARTBEAT_TIMER` (R24): Every 10 ms a management complex sends MGMT_HEARTBEAT with its beat counter. -/
  | mgmtHeartbeatTimer (h : Half)
  /-- `MGMT_HEARTBEAT` (R24): A half receives the other complex's heartbeat and notes that it is alive. -/
  | mgmtHeartbeat (h : Half)
  /-- `MGMT_PEER_LOST` (R336): The other complex's heartbeat has not advanced for 100 ms, so this complex takes over its half. -/
  | mgmtPeerLost (h : Half)
  /-- `MGMT_WATCHDOG` (R336): A complex's watchdog is not fed for 50 ms and the supervisor resets and restarts it. -/
  | mgmtWatchdog (h : Half)
  /-- `LOCKSTEP_MISMATCH` (R336): The lockstep comparator finds the two cores disagree and the management island is reset. -/
  | lockstepMismatch (h : Half)
  /-- `MGMT_RESTORED` (R337): A restarted complex's heartbeat resumes and it takes its pages back. -/
  | mgmtRestored (h : Half)
  /-- `RESTART_PEER` (R343): MGMT.CMD RESTART_PEER releases a held complex of the other half. -/
  | restartPeer (org : Origin) (h : Half)
  /-- `ISLAND_FAULT` (R17): An island stays in reset beyond 20 µs or leaves a handshake unanswered for 1 ms, and is marked failed and clamped. -/
  | islandFault (h : Half) (i : Nat)
  /-- `ISLAND_WAKE_DONE` (R17): A gated island finishes waking and releases the accesses held in the boundary FIFO. -/
  | islandWakeDone (h : Half) (i : Nat)
  /-- `ISLAND_RESET_DONE` (R17): A resetting island leaves reset and the held requests resume. -/
  | islandResetDone (h : Half) (i : Nat)
  /-- `ALWAYS_ON_SILENT` (R328): The always-on island is silent for 10 ms and the complex starts Last Ferry with cause 3. -/
  | alwaysOnSilent (h : Half)
  /-- `LINK_UP` (R69): A host sub-link finishes training and CXL.mem is enabled or the link runs degraded. -/
  | linkUp (h : Half) (port sub speed width : Nat) (flit256 : Bool)
  /-- `LINK_DOWN` (R69): A host sub-link goes down and is treated as a sub-link reset. -/
  | linkDown (h : Half) (port sub : Nat)
  /-- `PERST_N_ASSERT` (R85): PERST_N passes the port's filter and the port island resets, discarding fences and CXL state. -/
  | perstNAssert (h : Half) (port : Nat)
  /-- `PERST_N_DEASSERT` (R85): PERST_N rises and the port's links start training. -/
  | perstNDeassert (h : Half) (port : Nat)
  /-- `HOT_RESET` (R85): A hot reset on one sub-link resets the LDs of that sub-link as for PERST_N. -/
  | hotReset (h : Half) (port sub : Nat)
  /-- `CXL_RESET` (R85): A CXL Reset of one LD resets that LD as for PERST_N. -/
  | cxlReset (h : Half) (c : Nat)
  /-- `FLR` (R85): An FLR of an LD function resets CXL.io state and discards the LD's fences. -/
  | flr (h : Half) (c : Nat)
  /-- `HDM_DECODER_COMMIT` (R73): A host commits an HDM decoder, which is checked against CXL 3.1 and the device rules. -/
  | hdmDecoderCommit (h : Half) (c i base size skip ways gran : Nat) (hdmH : Bool)
  /-- `GET_EVENT_RECORDS` (R78): The mailbox returns event records of the LD's logs. -/
  | getEventRecords (h : Half) (c log : Nat)
  /-- `CLEAR_EVENT_RECORDS` (R78): The mailbox clears event records of the LD's logs. -/
  | clearEventRecords (h : Half) (c log : Nat) (all : Bool) (handles : List Nat)
  /-- `GET_EVENT_INTERRUPT_POLICY` (R78): The mailbox returns the event interrupt policy. -/
  | getEventInterruptPolicy (h : Half) (c : Nat)
  /-- `SET_EVENT_INTERRUPT_POLICY` (R78): The mailbox sets the event interrupt policy. -/
  | setEventInterruptPolicy (h : Half) (c : Nat) (policy : BitVec 40)
  /-- `GET_FW_INFO` (R78): The mailbox returns firmware information. -/
  | getFwInfo (h : Half) (c : Nat)
  /-- `GET_TIMESTAMP` (R78): The mailbox returns device time. -/
  | getTimestamp (h : Half) (c : Nat)
  /-- `SET_TIMESTAMP` (R78): The mailbox sets the one device time for all LDs and journals the setting. -/
  | setTimestamp (h : Half) (c : Nat) (t : BitVec 64)
  /-- `GET_SUPPORTED_LOGS` (R78): The mailbox lists the supported logs. -/
  | getSupportedLogs (h : Half) (c : Nat)
  /-- `GET_LOG` (R78): The mailbox returns the Command Effects Log. -/
  | getLog (h : Half) (c : Nat) (cel : Bool) (off len : Nat)
  /-- `IDENTIFY_MEMORY_DEVICE` (R78): The mailbox reports capacity, LSA size and poison list size. -/
  | identifyMemoryDevice (h : Half) (c : Nat)
  /-- `GET_PARTITION_INFO` (R78): The mailbox reports partition information with zero volatile capacity. -/
  | getPartitionInfo (h : Half) (c : Nat)
  /-- `GET_DYNAMIC_CAPACITY_CONFIGURATION` (R78): The mailbox reports the LD's Dynamic Capacity configuration. -/
  | getDynamicCapacityConfiguration (h : Half) (c : Nat)
  /-- `GET_DYNAMIC_CAPACITY_EXTENT_LIST` (R78): The mailbox reports the LD's Dynamic Capacity extents. -/
  | getDynamicCapacityExtentList (h : Half) (c start count : Nat)
  /-- `DC_ADD` (R74): A Dynamic Capacity add over the FM API draws an aligned extent from the home half's pool, or is refused. -/
  | dcAdd (ld region len : Nat)
  /-- `ADD_DYNAMIC_CAPACITY_RESPONSE` (R72): The host accepts offered Dynamic Capacity extents, each adding an extent-table entry. -/
  | addDynamicCapacityResponse (h : Half) (c : Nat) (runs : List (Nat × Nat))
  /-- `RELEASE_DYNAMIC_CAPACITY` (R74): The host releases a Dynamic Capacity extent, which takes effect once earlier accesses complete. -/
  | releaseDynamicCapacity (h : Half) (c : Nat) (runs : List (Nat × Nat))
  /-- `DC_RELEASE_EFFECT` (R74): Earlier accesses to a released extent have completed and its tiles become BLANK. -/
  | dcReleaseEffect (h : Half) (c : Nat)
  /-- `GET_LSA` (R81): The mailbox reads label storage. -/
  | getLsa (h : Half) (c off len : Nat)
  /-- `SET_LSA` (R81): The mailbox writes label storage as a stamped, mirrored write completing at its seal. -/
  | setLsa (h : Half) (c off : Nat) (bytes : List Byte)
  /-- `GET_HEALTH_INFO` (R80): The mailbox reports health status, media status, life used and counts. -/
  | getHealthInfo (h : Half) (c : Nat)
  /-- `GET_ALERT_CONFIGURATION` (R80): The mailbox returns the alert configuration. -/
  | getAlertConfiguration (h : Half) (c : Nat)
  /-- `SET_ALERT_CONFIGURATION` (R80): The mailbox sets the alert configuration. -/
  | setAlertConfiguration (h : Half) (c : Nat) (cfg : BitVec 96)
  /-- `GET_SHUTDOWN_STATE` (R80): The mailbox returns the LD's shutdown state. -/
  | getShutdownState (h : Half) (c : Nat)
  /-- `SET_SHUTDOWN_STATE` (R80): The mailbox stores the LD's shutdown state in the NAND system region. -/
  | setShutdownState (h : Half) (c : Nat) (dirty : Bool)
  /-- `GET_POISON_LIST` (R79): The mailbox reports the LD's entries of the half's poison list. -/
  | getPoisonList (h : Half) (c lda len : Nat)
  /-- `INJECT_POISON` (R79): The mailbox writes a line with its poison bit set, completing at its seal. -/
  | injectPoison (h : Half) (c lda : Nat)
  /-- `CLEAR_POISON` (R79): The mailbox writes supplied data with the poison bit clear, completing at its seal. -/
  | clearPoison (h : Half) (c lda : Nat) (data : LineData)
  /-- `GET_SCAN_MEDIA_CAPABILITIES` (R79): The mailbox reports scan media capabilities. -/
  | getScanMediaCapabilities (h : Half) (c lda len : Nat)
  /-- `SCAN_MEDIA` (R79): The mailbox starts a background scan of a range that rebuilds the poison list. -/
  | scanMedia (h : Half) (c lda len : Nat)
  /-- `SCAN_MEDIA_DONE` (R79): A Scan Media finishes, rebuilding the list and clearing the overflow flag. -/
  | scanMediaDone (h : Half) (c : Nat)
  /-- `GET_SCAN_MEDIA_RESULTS` (R79): The mailbox returns the results of a scan. -/
  | getScanMediaResults (h : Half) (c : Nat)
  /-- `SANITIZE` (R82): The mailbox starts a crypto-erase of the LD that also zeroes label storage. -/
  | sanitize (h : Half) (c : Nat)
  /-- `SECURE_ERASE` (R82): The mailbox starts a crypto-erase of the LD. -/
  | secureErase (h : Half) (c : Nat)
  /-- `SANITIZE_WALK_DONE` (R82): The walk marking the LD's tiles BLANK ends and the erase command completes. -/
  | sanitizeWalkDone (h : Half) (c : Nat)
  /-- `MAILBOX_UNSUPPORTED` (R78): A mailbox opcode outside the implemented sets returns Unsupported. -/
  | mailboxUnsupported (h : Half) (c op : Nat)
  /-- `CDAT_REQUEST` (R88): A DOE CDAT request is answered with DSMAS and DSLBIS entries. -/
  | cdatRequest (h : Half) (c : Nat)
  /-- `EV_IRQ_WRITE` (R77): A write to LDP.EV_IRQ sets the vector and mask and sends at once for an already set latch. -/
  | evIrqWrite (org : Origin) (h : Half) (c : Nat) (vec mask : BitVec 11)
  /-- `PROMOTION_READ_DONE` (R105): The tile read for a promotion completes and is decrypted and checked, or fails and goes to retry, recall or LOST. -/
  | promotionReadDone (h : Half) (ok : Bool)
  /-- `PROMOTION_FRAME_WRITTEN` (R105): A promoted tile's lines are in its frame, the tile becomes DRAM_CLEAN and held requests are released. -/
  | promotionFrameWritten (h : Half)
  /-- `SINK_START` (R107): The write-back engine chooses an eligible dirty tile and starts its sink. -/
  | sinkStart (h : Half)
  /-- `SINK_PROGRAM_DONE` (R108): A sink's program completes and NAND_TILE and the tile state are updated. -/
  | sinkProgramDone (h : Half) (t : Nat) (ok : Bool) (plane : Nat)
  /-- `EVICTION` (R110): Free frames fall below FREE_LOW and the engine evicts an eligible clean tile. -/
  | eviction (h : Half)
  /-- `FRAME_FORMATTED` (R97): The formatter finishes a FREE_RAW frame and moves it to FREE_FMT. -/
  | frameFormatted (h : Half) (k : Nat)
  /-- `AGE_TICK` (R101): The age clock advances every PERIOD_MS. -/
  | ageTick (h : Half)
  /-- `MANIFEST_CHECKPOINT` (R103): The tier engine writes a changed 4,096-entry block of the Manifest to NAND at its set pace. -/
  | manifestCheckpoint (h : Half)
  /-- `STREAM_OPEN` (R116): Writing OPEN = 1 to LDP.STREAMk_CTL opens a stream window or fails with RANGE or NO_WINDOW. -/
  | streamOpen (org : Origin) (h : Half) (c k : Nat)
  /-- `STREAM_CLOSE` (R116): Writing OPEN = 0 closes the stream window. -/
  | streamClose (org : Origin) (h : Half) (c k : Nat)
  /-- `STREAM_IDLE_CLOSE` (R116): A window with no access for 1 s ends with IDLE_CLOSED. -/
  | streamIdleClose (h : Half) (c k : Nat)
  /-- `PIN_TILE` (R118): The tier command pins a tile and promotes it if needed. -/
  | pinTile (org : Origin) (h : Half)
  /-- `UNPIN_TILE` (R118): The tier command clears PINNED. -/
  | unpinTile (org : Origin) (h : Half)
  /-- `SINK_TILE` (R118): The tier command sinks a dirty tile now. -/
  | sinkTile (org : Origin) (h : Half)
  /-- `EVICT_TILE` (R118): The tier command sinks a dirty tile if needed and evicts it. -/
  | evictTile (org : Origin) (h : Half)
  /-- `RETIRE_FRAME` (R119): The tier command retires one frame, migrating its tile or diagnostic contents. -/
  | retireFrame (org : Origin) (h : Half)
  /-- `RETIRE_BANK` (R119): The tier command retires every frame of a bank one by one. -/
  | retireBank (org : Origin) (h : Half)
  /-- `MANF_PEEK` (R121): Writing a tile number to MANF.PEEK copies its entry into PEEK_ENTRY. -/
  | manfPeek (org : Origin) (h : Half) (tile : Nat)
  /-- `SCRUB_READ` (R140): The paced patrol scrub reads and decodes the next line of a subchannel. -/
  | scrubRead (h : Half) (k : Nat) (err : Machine.SLine) (unit verdict cw sy : Nat)
  /-- `SRAM_SWEEP` (R140): Every half hour the scrub sequencer sweeps the SRAM units. -/
  | sramSweep (h : Half) (flips : List (Nat × Machine.SLine)) (dirs : List Nat) (rows : List Machine.SramErr)
  /-- `REPEAT_FILTER_EXPIRY` (R139): A repeat filter entry's REPEAT_WIN ends and the entry expires. -/
  | repeatFilterExpiry (h : Half)
  /-- `LINE_REPAIR_NAND_DONE` (R142): The NAND copy read for a clean tile's uncorrectable line completes and the line is rewritten. -/
  | lineRepairNandDone (h : Half) (ok : Bool)
  /-- `LINE_RECALL_AFTER_SEAL` (R142): The tile's last sailing seals with twin acknowledgement and the waiting repair sends its recall. -/
  | lineRecallAfterSeal (h : Half)
  /-- `REPAIR_HOLD_EXPIRY` (R143): A read held at a line under repair reaches REPAIR_HOLD and returns poison. -/
  | repairHoldExpiry (h : Half) (line : Nat)
  /-- `WRITE_RAW` (R148): The ECCD command writes WDATA and WSIDE to the diagnostic line as given. -/
  | writeRaw (org : Origin) (h : Half)
  /-- `WRITE_ENC` (R148): The ECCD command computes checks and ACRC and writes the diagnostic line. -/
  | writeEnc (org : Origin) (h : Half)
  /-- `READ_DECODE` (R148): The ECCD command reads and decodes the diagnostic line into the result registers. -/
  | readDecode (org : Origin) (h : Half)
  /-- `READ_RAW` (R148): The ECCD command returns the stored bits of the diagnostic line. -/
  | readRaw (org : Origin) (h : Half)
  /-- `RELOCATE` (R148): The ECCD command moves a diagnostic frame to another subchannel. -/
  | relocate (org : Origin) (h : Half) (sub : Nat)
  /-- `SRAM_INJ` (R149): Arming ECCD.SRAM_INJ inverts chosen bits on the next read of the selected SRAM unit. -/
  | sramInj (org : Origin) (h : Half)
  /-- `SCOR_SEL` (R151): Writing an index to SCOR.SEL copies that scoresheet entry into ENTRY. -/
  | scorSel (org : Origin) (h : Half) (i : Nat)
  /-- `SCOR_ACK` (R146): Writing an index to SCOR.ACK acknowledges its HARD entry. -/
  | scorAck (org : Origin) (h : Half) (i : Nat)
  /-- `REFRESH` (R161): A subchannel's tREFI slot comes due and REFab is issued to every rank. -/
  | refresh (h : Half) (k : Nat)
  /-- `ZQ_CALIBRATION` (R163): Every 128 ms a rank runs ZQ calibration. -/
  | zqCalibration (h : Half) (k : Nat)
  /-- `ALERT_N` (R164): ALERT_n is sampled low and both subchannels replay the commands in the parity window. -/
  | alertN (h : Half) (c : Nat) (again : Bool) (late : Nat)
  /-- `CA_RETRAIN_DONE` (R174): A CA retrain ends, resuming the channel or failing its subchannels. -/
  | caRetrainDone (h : Half) (c : Nat) (ok0 ok1 : Bool)
  /-- `SELF_REFRESH_ENTRY` (R166): A subchannel idle for SR_IDLE_US enters self-refresh. -/
  | selfRefreshEntry (h : Half) (k : Nat)
  /-- `FREQ_SEL` (R169): A write to MEMC.FREQ.SEL orders a change of timing set for the whole half. -/
  | freqSel (org : Origin) (h : Half) (c v : Nat)
  /-- `FREQ_CHANGE_DONE` (R168): A DDR island finishes changing timing set and the next island starts. -/
  | freqChangeDone (h : Half)
  /-- `DRIFT_MEASURE` (R173): Every PERIOD_MS the DQS oscillator is read per rank and drift corrections are applied. -/
  | driftMeasure (h : Half) (k : Nat) (steps : List Int)
  /-- `DRIFT_RETRAIN_SLICE` (R174): A drift retrain slice tests one rank and row, holding the subchannel for at most 20 µs. -/
  | driftRetrainSlice (h : Half) (k : Nat) (last ok : Bool) (new : List (Nat × Nat))
  /-- `DTRN_WRITE_PATTERN` (R178): DTRN.RUN op 1 writes the pattern. -/
  | dtrnWritePattern (org : Origin) (h : Half) (c bursts rep : Nat)
  /-- `DTRN_READ_COMPARE` (R178): DTRN.RUN op 2 reads and compares. -/
  | dtrnReadCompare (org : Origin) (h : Half) (c bursts rep : Nat)
  /-- `DTRN_WRITE_READ_COMPARE` (R178): DTRN.RUN op 3 writes, then reads and compares. -/
  | dtrnWriteReadCompare (org : Origin) (h : Half) (c bursts rep : Nat)
  /-- `DTRN_TRAINING_PATTERN_READ` (R178): DTRN.RUN op 4 reads the DRAM training pattern. -/
  | dtrnTrainingPatternRead (org : Origin) (h : Half) (c bursts rep : Nat)
  /-- `DTRN_CS_LOOPBACK` (R178): DTRN.RUN op 5 runs a CS loopback. -/
  | dtrnCsLoopback (org : Origin) (h : Half) (c bursts rep : Nat)
  /-- `DTRN_CA_LOOPBACK` (R178): DTRN.RUN op 6 runs a CA loopback. -/
  | dtrnCaLoopback (org : Origin) (h : Half) (c bursts rep : Nat)
  /-- `DTRN_WRITE_LEVEL_SAMPLE` (R178): DTRN.RUN op 7 takes a write-leveling sample. -/
  | dtrnWriteLevelSample (org : Origin) (h : Half) (c bursts rep : Nat)
  /-- `DTRN_GATE_SAMPLE` (R178): DTRN.RUN op 8 takes a gate sample. -/
  | dtrnGateSample (org : Origin) (h : Half) (c bursts rep : Nat)
  /-- `DTRN_DQS_OSCILLATOR` (R178): DTRN.RUN op 9 runs the DQS oscillator. -/
  | dtrnDqsOscillator (org : Origin) (h : Half) (c bursts rep : Nat)
  /-- `DTRN_RUN_DONE` (R178): A training run completes and DTRN_DONE is raised. -/
  | dtrnRunDone (h : Half) (c : Nat) (errs : List Nat) (val : Nat)
  /-- `DTRN_MRW_WRITE` (R178): DTRN.MRW writes a DRAM mode register or RCD control word. -/
  | dtrnMrwWrite (org : Origin) (h : Half) (c : Nat) (rcd : Bool) (rank addr val : Nat)
  /-- `DTRN_MRW_READ` (R178): DTRN.MRW reads a DRAM mode register or RCD control word into RUN_STATUS. -/
  | dtrnMrwRead (org : Origin) (h : Half) (c : Nat) (rcd : Bool) (rank addr : Nat)
  /-- `PRELOAD` (R187): The LAND command loads a range of lines into one way. -/
  | preload (org : Origin) (h : Half) (way : Nat)
  /-- `LOCK` (R187): The LAND command locks a way. -/
  | lock (org : Origin) (h : Half) (way : Nat)
  /-- `UNLOCK` (R187): The LAND command unlocks a way. -/
  | unlock (org : Origin) (h : Half) (way : Nat)
  /-- `LAND_CMD_DONE` (R187): A running PRELOAD completes. -/
  | landCmdDone (h : Half)
  /-- `WAY_DISABLED` (R188): The way's walk and write-back end and the way is invalidated. -/
  | wayDisabled (h : Half) (way : Nat)
  /-- `WAY_TALLY_EXPIRY` (R188): REPEAT_WIN passes since a way tally's first event and the tally clears. -/
  | wayTallyExpiry (h : Half) (way : Nat)
  /-- `DRAIN_DONE` (R190): A Landing cache drain ends and the cache is DISABLED. -/
  | drainDone (h : Half)
  /-- `EVICTION_BUFFER_FREE` (R185): An eviction-buffer entry's DRAM write issues and the entry is freed. -/
  | evictionBufferFree (h : Half)
  /-- `FERRY_CODEWORD` (R197): A Ferry codeword is received and decoded, or is uncorrectable and a NAK is sent. -/
  | ferryCodeword (h : Half) (bits : BitVec 5140) (fixed : Nat)
  /-- `LINK_CTL_DUE` (R197): 32 codewords pass and the receiver sends LINK_CTL with its ACK_CSEQ. -/
  | linkCtlDue (h : Half)
  /-- `LINK_CTL` (R197): A LINK_CTL arrives, freeing the replay buffer or, with NAK, causing a resend. -/
  | linkCtl (h : Half)
  /-- `MIRROR_LINES` (R207): A twin half receives mirrored lines and stages them. -/
  | mirrorLines (h : Half)
  /-- `SAILING_CLOSE` (R208): A twin half receives a sailing's close and verifies its count and CMAC. -/
  | sailingClose (h : Half)
  /-- `SIB_VERIFIED` (R208): A twin half receives its sibling's notice that a sailing is verified. -/
  | sibVerified (h : Half)
  /-- `SAILING_APPLY_DONE` (R208): A twin half finishes applying a sailing and sends SAILING_ACK with credits. -/
  | sailingApplyDone (h : Half) (bad : Bool)
  /-- `SAILING_ACK` (R40): A source half receives SAILING_ACK, which may seal sailings or declare the twin lost. -/
  | sailingAck (h : Half)
  /-- `LINE_RECALL_REQ` (R219): The twin receives a recall request and answers it by status. -/
  | lineRecallReq (h : Half)
  /-- `LINE_RECALL_RESP` (R219): The requester receives a recalled line and writes or poisons it. -/
  | lineRecallResp (h : Half)
  /-- `TILE_STREAM` (R218): The receiver gets a DATA, BLANK or LOST tile stream and applies it at its stream position. -/
  | tileStream (h : Half)
  /-- `TILE_STREAM_PULL` (R216): The source receives a PULL and captures the tile for streaming. -/
  | tileStreamPull (h : Half)
  /-- `TILE_CAPTURE_DONE` (R217): A tile capture ends and its stream enters the sailing stream. -/
  | tileCaptureDone (h : Half)
  /-- `RESYNC_BEGIN` (R216): The receiver gets RESYNC_BEGIN, discards staged sailings and starts its walk. -/
  | resyncBegin (h : Half)
  /-- `RESYNC_WALK_DONE` (R216): Both walks and all pulls are done and the source sends RESYNC_END. -/
  | resyncWalkDone (h : Half)
  /-- `RESYNC_END` (R216): The receiver gets RESYNC_END and adopts the source's generation. -/
  | resyncEnd (h : Half)
  /-- `HEARTBEAT_TIMER` (R199): Every 10 ms a half sends a Ferry HEARTBEAT. -/
  | heartbeatTimer (h : Half)
  /-- `HEARTBEAT` (R214): A half receives the peer's HEARTBEAT and compares generations and pairing. -/
  | heartbeat (h : Half)
  /-- `TWIN_LOST` (R211): No HEARTBEAT arrives for LOST_MS and the twin is declared lost. -/
  | twinLost (h : Half)
  /-- `REKEY_INITIAL` (R204): An INITIAL REKEY is received, checked and used to derive session keys. -/
  | rekeyInitial (h : Half)
  /-- `REKEY_OFFER` (R206): A REKEY OFFER is received and new keys are derived once both offers are held. -/
  | rekeyOffer (h : Half)
  /-- `REKEY_SWITCH` (R206): A REKEY SWITCH is received and the receiver changes keys. -/
  | rekeySwitch (h : Half)
  /-- `REKEY_SEQUENCE_DUE` (R206): The transmit sequence reaches 2^40 and a rekey starts. -/
  | rekeySequenceDue (h : Half)
  /-- `REKEY_TIMEOUT` (R206): A rekey not completed within 100 ms is restarted. -/
  | rekeyTimeout (h : Half)
  /-- `KEY_EVENT_LOAD_PHASE` (R260): The twin applies a KEY_EVENT that loads a phase into a slot. -/
  | keyEventLoadPhase (h : Half)
  /-- `KEY_EVENT_ERASE` (R275): The twin applies a KEY_EVENT that erases a slot and starts its walk. -/
  | keyEventErase (h : Half)
  /-- `KEY_EVENT_RETIRE` (R276): The twin applies a KEY_EVENT that retires a slot. -/
  | keyEventRetire (h : Half)
  /-- `PROMOTE` (R213): FERY.CMD PROMOTE stops applying, records a new generation and takes ownership. -/
  | promote (org : Origin) (h : Half)
  /-- `PROMOTE_RECORD_DONE` (R213): The promotion record is written and the device takes ownership and goes solo. -/
  | promoteRecordDone
  /-- `FERY_REKEY` (R206): FERY.CMD REKEY starts a rekey. -/
  | feryRekey (org : Origin) (h : Half)
  /-- `RESYNC_START` (R216): FERY.CMD RESYNC_START starts a resync as source. -/
  | resyncStart (org : Origin) (h : Half)
  /-- `FERY_RETRAIN` (R212): FERY.CMD RETRAIN closes the current sailing and waits to end the session. -/
  | feryRetrain (org : Origin) (h : Half)
  /-- `FERY_RETRAIN_ACK_WAIT` (R212): Acknowledgements arrive or 1 ms passes, and the session ends and the lanes retrain. -/
  | feryRetrainAckWait (h : Half)
  /-- `FERRY_LANE_TRAINING_DONE` (R409): Ferry lane training ends and session set-up starts, or a retry is scheduled. -/
  | ferryLaneTrainingDone (h : Half) (lanes : Nat)
  /-- `SESSION_UP` (R409): Session set-up completes and a resync starts if AUTO_RESYNC. -/
  | sessionUp (h : Half) (mode boundary split lanes : Nat) (single : Bool) (backed : Nat)
  /-- `FERRY_RETRY_TIMER` (R409): 1 s after a failed attempt, training or set-up is attempted again. -/
  | ferryRetryTimer (h : Half)
  /-- `READ_TILE` (R230): A descriptor reads and decodes a tile into a buffer. -/
  | readTile (h : Half) (isle ring : Nat) (desc : BitVec 512)
  /-- `PROGRAM_TILE` (R230): A descriptor encodes and programs a tile after the program-order checks. -/
  | programTile (h : Half) (isle ring : Nat) (desc : BitVec 512) (img : Option Machine.TileImg)
  /-- `ERASE_BLOCK` (R230): A descriptor erases a stripe or one block. -/
  | eraseBlock (h : Half) (isle ring : Nat) (sys : Bool) (desc : BitVec 512)
  /-- `READ_PAGE_RAW` (R230): A descriptor reads one plane's page undecoded. -/
  | readPageRaw (h : Half) (isle ring : Nat) (desc : BitVec 512)
  /-- `PROGRAM_PAGE_RAW` (R230): A descriptor programs one plane's page without encoding. -/
  | programPageRaw (h : Half) (isle ring : Nat) (desc : BitVec 512) (bytes : List Byte)
  /-- `SET_FEATURE` (R230): A descriptor sets a LUN feature. -/
  | setFeature (h : Half) (isle ring : Nat) (desc : BitVec 512)
  /-- `GET_PARAM` (R230): A descriptor reads a parameter page into a buffer. -/
  | getParam (h : Half) (isle ring : Nat) (desc : BitVec 512)
  /-- `NAND_OPERATION_DONE` (R231): A LUN reports ready for an operation and its completion record is written. -/
  | nandOperationDone (h : Half) (lun : Nat) (r : NandEnd)
  /-- `NAND_SUSPEND_DONE` (R234): A suspended program or erase reaches suspend and the queued reads are served, then resumed. -/
  | nandSuspendDone (h : Half) (lun : Nat)
  /-- `FLASH_TIMEOUT` (R232): A LUN is not ready within TIMEOUT_X times its maximum and is reset. -/
  | flashTimeout (h : Half) (lun : Nat)
  /-- `ERASE_OVERDUE` (R235): An erase passes ERASE_OVD_MS and ERASE_OVERDUE is raised once. -/
  | eraseOverdue (h : Half) (lun : Nat)
  /-- `FLASH_CHANNEL_RETRAIN` (R224): Three CRC or training failures within 1 s start a channel retrain. -/
  | flashChannelRetrain (h : Half) (c : Nat)
  /-- `FLASH_CHANNEL_TRAIN_DONE` (R224): A flash channel's training ends, UP or FAILED. -/
  | flashChannelTrainDone (h : Half) (c : Nat) (ok : Bool) (cause : Nat)
  /-- `FORMAT` (R247): FLSH.CMD FORMAT runs first initialisation of the half. -/
  | format (org : Origin) (h : Half)
  /-- `FORMAT_DONE` (R247): FORMAT completes and the backed count is fixed. -/
  | formatDone (h : Half) (pages stripes bits : Nat) (luns bad : List Nat)
  /-- `DIAG_GO` (R250): FLSH.DIAG_CMD.GO submits the diagnostic descriptor, or refuses it. -/
  | diagGo (org : Origin) (h : Half) (isle : Nat)
  /-- `ESTABLISH` (R257): The key command derives the origin's transport key from a supplied ephemeral key. -/
  | establish (org : Origin) (h : Half)
  /-- `KEY_LOAD` (R259): The key command unwraps keys into a slot phase, or defers or refuses. -/
  | keyLoad (org : Origin) (h : Half) (slot : Nat) (phase : Bool)
  /-- `KEY_GENERATE` (R259): The key command fills a slot phase from the DRBG. -/
  | keyGenerate (org : Origin) (h : Half) (slot : Nat) (phase : Bool)
  /-- `KEY_SWEEP` (R271): The key command flips a slot's phase and starts the rekey sweep. -/
  | keySweep (org : Origin) (h : Half) (slot : Nat)
  /-- `KEY_ERASE` (R274): The key command zeroises a slot in both halves. -/
  | keyErase (org : Origin) (h : Half) (slot : Nat)
  /-- `KEY_RETIRE` (R276): The key command zeroises a slot and retires it permanently. -/
  | keyRetire (org : Origin) (h : Half) (slot : Nat)
  /-- `KEY_SELECT` (R280): The key command copies a slot's status into SLOT_STATUS, GEN and USERS. -/
  | keySelect (org : Origin) (h : Half) (slot : Nat)
  /-- `LOAD_DEFERRED_APPLY` (R273): The last earlier request on a slot phase finishes and the deferred keys are written. -/
  | loadDeferredApply
  /-- `KEY_ERASE_RECORD_DONE` (R274): The NAND record overwrite of an erase ends and the slot becomes EMPTY with WALKING. -/
  | keyEraseRecordDone (slot : Nat)
  /-- `WALK_DONE` (R275): The erase walk of a slot ends and WALKING clears. -/
  | walkDone (h : Half) (slot : Nat)
  /-- `SWEEP_DONE` (R271): Both halves end their sweep walks with no tile on the old phase and the slot returns to ACTIVE. -/
  | sweepDone
  /-- `XTS_ENC` (R267): A queued request encrypts data units with XTS. -/
  | xtsEnc (h : Half) (org : Origin) (req : BitVec 512) (src : List Byte)
  /-- `XTS_DEC` (R267): A queued request decrypts data units with XTS. -/
  | xtsDec (h : Half) (org : Origin) (req : BitVec 512) (src : List Byte)
  /-- `CMAC_GEN` (R267): A queued request computes a CMAC tag. -/
  | cmacGen (h : Half) (org : Origin) (req : BitVec 512) (src : List Byte)
  /-- `CMAC_VERIFY` (R267): A queued request checks a CMAC tag. -/
  | cmacVerify (h : Half) (org : Origin) (req : BitVec 512) (src : List Byte)
  /-- `TILE_SEAL` (R267): A queued request encrypts a tile's sectors and computes its CMAC. -/
  | tileSeal (h : Half) (org : Origin) (req : BitVec 512) (src : List Byte)
  /-- `TILE_OPEN` (R267): A queued request checks a tile's CMAC and decrypts it. -/
  | tileOpen (h : Half) (org : Origin) (req : BitVec 512) (src : List Byte)
  /-- `TILE_VERIFY` (R267): A queued request checks a tile's CMAC only. -/
  | tileVerify (h : Half) (org : Origin) (req : BitVec 512) (src : List Byte)
  /-- `WRAP` (R267): A queued request performs an RFC 3394 wrap. -/
  | wrap (h : Half) (org : Origin) (req : BitVec 512) (src : List Byte)
  /-- `UNWRAP` (R267): A queued request performs an RFC 3394 unwrap and checks its initial value. -/
  | unwrap (h : Half) (org : Origin) (req : BitVec 512) (src : List Byte)
  /-- `CIPHER_REQUEST_DONE` (R270): A queued cipher request completes and its record is written. -/
  | cipherRequestDone (h : Half) (core elapsed : Nat)
  /-- `CIPHER_AGEING` (R268): A normal or bulk request that has waited 1 ms is promoted to high. -/
  | cipherAgeing (h : Half)
  /-- `CORE_FAILED` (R270): A core fails to complete a request within 1 ms and is taken out of service. -/
  | coreFailed (h : Half) (core : Nat)
  /-- `SVN_ADVANCE` (R293): The OTP command raises the security version. -/
  | svnAdvance (org : Origin) (h : Half) (arg : Nat) (fail : Option Nat)
  /-- `REVOKE_SIGNER` (R297): The OTP command revokes a signer. -/
  | revokeSigner (org : Origin) (h : Half) (arg : Nat) (fail : Option Nat)
  /-- `LC_ADVANCE` (R297): The OTP command advances the lifecycle state. -/
  | lcAdvance (org : Origin) (h : Half) (arg : Nat) (fail : Option Nat)
  /-- `LOCK_STRAP` (R297): The OTP command freezes a strap at its sampled value. -/
  | lockStrap (org : Origin) (h : Half) (arg : Nat) (fail : Option Nat)
  /-- `BOOT_MEAS_SEL` (R298): Writing an index to BOOT.MEAS_SEL copies that measurement into MEAS_DATA. -/
  | bootMeasSel (org : Origin) (h : Half) (i : Nat)
  /-- `ROM_BOOT` (R289): With G3 good and RESET_N high the ROM checks OTP, derives keys, verifies and starts firmware. -/
  | romBoot (h : Half) (us : Nat)
  /-- `RECOVERY_BOOT` (R290): A recovery image arrives from the BMC, is checked and run from SRAM. -/
  | recoveryBoot (img : Machine.Image) (us : Nat)
  /-- `TRANSFER_FW` (R292): The FM API writes an image into the slot that did not boot. -/
  | transferFw (img : Machine.Image)
  /-- `ACTIVATE_FW` (R292): The FM API activates firmware for the next cold start. -/
  | activateFw (online : Bool)
  /-- `GET_VERSION` (R295): The SPDM responder answers GET_VERSION and resets the requester's state. -/
  | getVersion (r : Nat)
  /-- `GET_CAPABILITIES` (R295): The SPDM responder answers GET_CAPABILITIES. -/
  | getCapabilities (r : Nat)
  /-- `NEGOTIATE_ALGORITHMS` (R295): The SPDM responder answers NEGOTIATE_ALGORITHMS. -/
  | negotiateAlgorithms (r asym hash : Nat)
  /-- `GET_DIGESTS` (R295): The SPDM responder returns certificate chain digests. -/
  | getDigests (r : Nat)
  /-- `GET_CERTIFICATE` (R295): The SPDM responder returns a certificate chain. -/
  | getCertificate (r slot off len : Nat)
  /-- `CHALLENGE` (R296): The SPDM responder answers a CHALLENGE with a signature. -/
  | challenge (r slot : Nat) (summary : Bool)
  /-- `GET_MEASUREMENTS` (R294): The SPDM responder returns measurements, signed on request. -/
  | getMeasurements (r op : Nat) (signed : Bool)
  /-- `SET_CERTIFICATE` (R295): The SPDM responder writes the operator chain into slot 1. -/
  | setCertificate (r slot : Nat) (chain : List Byte)
  /-- `CHUNK_SEND` (R295): The SPDM responder takes a chunk of a large request. -/
  | chunkSend (r : Nat) (last : Bool) (bytes : List Byte)
  /-- `CHUNK_GET` (R295): The SPDM responder returns a chunk of a large response. -/
  | chunkGet (r : Nat)
  /-- `SPDM_STATE_TIMEOUT` (R296): A requester's SPDM state idle for 60 s is released. -/
  | spdmStateTimeout (r : Nat)
  /-- `PWRFAIL_N_FALL` (R303): PWRFAIL_N passes the 1 µs filter and the ride-through starts. -/
  | pwrfailNFall
  /-- `PWRFAIL_GLITCH` (R303): PWRFAIL_N rises before the ride-through ends and the glitch is counted. -/
  | pwrfailGlitch
  /-- `RIDE_THROUGH_EXPIRY` (R302): PWRFAIL_N stays low for RIDE_US and Last Ferry starts. -/
  | rideThroughExpiry
  /-- `POWER_DOWN` (R302): PWRS.CMD POWER_DOWN starts Last Ferry. -/
  | powerDown (org : Origin) (h : Half)
  /-- `POWER_OFF` (R302): PWRS.CMD POWER_OFF starts Last Ferry ending OFF. -/
  | powerOff (org : Origin) (h : Half)
  /-- `LF_FLUSH_DONE` (R307): Last Ferry's flush of the Landing cache, eviction buffer and write queues ends. -/
  | lfFlushDone (h : Half)
  /-- `LF_PUSH_END` (R307): Last Ferry's Ferry push ends or its 100 µs limit passes and the lanes idle. -/
  | lfPushEnd (h : Half)
  /-- `LF_EVACUATE_DONE` (R308): Last Ferry's evacuation of tiles, line records and deltas ends. -/
  | lfEvacuateDone (h : Half) (fails : SMap Nat)
  /-- `VOYAGE_RECORD_WRITTEN` (R310): The voyage record is written and step 7 moors, returns warm or goes off. -/
  | voyageRecordWritten (h : Half) (copies us : Nat)
  /-- `RTC_ALARM` (R321): RTC_NOW reaches an armed alarm tick and the device wakes from MOORED or OFF. -/
  | rtcAlarm (h : Half)
  /-- `RTC_ALARM_WRITE` (R321): A write to PWRS.RTC_ALARM applies at once to both halves' copies. -/
  | rtcAlarmWrite (org : Origin) (h : Half) (v : DWord)
  /-- `COLD_START` (R324): A cold start trains DRAM, loads the Manifest and restarts from the voyage record. -/
  | coldStart (h : Half) (e : Machine.ColdEnv)
  /-- `REARM_DONE` (R325): The reserve is reclaimed and erased, Last Ferry is ready and held writes are released. -/
  | rearmDone (h : Half)
  /-- `DDR_IDLE_GATE` (R301): Every subchannel of a DDR island has been in self-refresh for DDR_GATE_MS and the island is gated. -/
  | ddrIdleGate (h : Half) (i : Nat)
  /-- `RE_HOMING` (R330): The tier engine takes the next DARK tile and reloads or recalls it into a new frame. -/
  | reHoming (h : Half)
  /-- `REGISTER_WRITE` (R351): A write to a register with no row of its own is staged, implicitly committed, applied or refused by access code. -/
  | registerWrite (org : Origin) (h : Half) (page off : Nat) (v : Word) (full : Bool) (fail : Option Nat)
  /-- `CAST_BEGIN` (R357): The Castling command opens a transaction for the origin. -/
  | castBegin (org : Origin) (h : Half)
  /-- `CAST_COMMIT` (R361): The Castling command checks the staged values and exchanges votes. -/
  | castCommit (org : Origin) (h : Half)
  /-- `CAST_ROLLBACK` (R362): The Castling command discards the staged writes. -/
  | castRollback (org : Origin) (h : Half)
  /-- `CAST_TIMEOUT` (R362): A transaction still open 1 s after CAST_BEGIN is rolled back. -/
  | castTimeout (i : Nat)
  /-- `CAST_BOUNDARY_APPLY` (R361): The target sailing boundary opens and affected islands pause, apply the committed values and resume. -/
  | castBoundaryApply (h : Half)
  /-- `CHART_RECORD_DONE` (R361): The chart record is written in both halves and the commit ends COMMITTED. -/
  | chartRecordDone (i : Nat)
  /-- `JRNL_SEL` (R367): Writing a sequence to JRNL.SEL copies that journal entry into ENTRY. -/
  | jrnlSel (org : Origin) (h : Half) (seq : DWord)
  /-- `JRNL_EV_SEL` (R367): Writing a sequence to JRNL.EV_SEL copies that event record into EV_REC. -/
  | jrnlEvSel (org : Origin) (h : Half) (seq : DWord)
  /-- `JOURNAL_SPILL` (R356): The journal ring reaches 75% and the oldest 2,048 entries spill to NAND. -/
  | journalSpill (h : Half) (ok : Bool)
  /-- `SEQ_IN_RISE` (R373): SEQ_IN rises while OFF with G0 good and the up-sequence starts. -/
  | seqInRise
  /-- `INPUT_LOSS` (R373): SEQ_IN falls while ON or TRIM and starts Last Ferry with no ride-through. -/
  | inputLoss
  /-- `GROUP_GOOD` (R374): A supply group becomes good and its delay ends, so the next group is enabled. -/
  | groupGood (n : Nat) (flashWest flashEast : BitVec 32)
  /-- `GROUP_TIMEOUT` (R377): A group is not good within TIMEOUT_MS and is a fault. -/
  | groupTimeout (n rail : Nat)
  /-- `SUPPLY_FAULT` (R377): A rail comparator or PG pin faults and the device down-sequences, with or without Last Ferry. -/
  | supplyFault (h : Half) (rail kind : Nat)
  /-- `RAIL_FALLEN` (R376): A group's rails fall below 10% and the next group of the down-sequence is switched off. -/
  | railFallen (n : Nat)
  /-- `FALL_SLOW` (R376): A rail has not fallen within FALL_MS, a timeout is counted and the sequence goes on. -/
  | fallSlow (rail : Nat)
  /-- `SEQ_OUT_DELAY` (R373): SEQ_DLY_US after the last group good, SEQ_OUT rises. -/
  | seqOutDelay
  /-- `SUPV_RELEASE` (R374): SUPV.CTRL.RELEASE in HOLD_RELEASE continues the up-sequence with G5. -/
  | supvRelease (org : Origin) (h : Half)
  /-- `CLR_COUNTS` (R379): SUPV.CTRL.CLR_COUNTS logs and then clears every rail counter. -/
  | clrCounts (org : Origin) (h : Half)
  /-- `SUPV_CNT_SEL` (R387): Writing a rail index to SUPV.CNT_SEL shows its counters in SUPV.CNT. -/
  | supvCntSel (org : Origin) (h : Half) (rail : Nat)
  /-- `COUNTER_FLUSH` (R379): Once an hour by the RTC the rail counters are written to the log. -/
  | counterFlush
  /-- `HOUSEKEEPING_ROUND` (R380): Every 2 ms the housekeeping unit reads diodes, monitors and currents, and SPD sensors every 16th round. -/
  | housekeepingRound (h : Half) (diodes : List (Option Int)) (volts currs : List Nat) (spd : List (Option Nat)) (drift : List Nat) (late : Bool)
  /-- `THERMAL_TRIP` (R385): A hot-spot comparator fires at 120 °C, asserting THERMTRIP_N and an immediate down-sequence. -/
  | thermalTrip (h : Half) (diode temp : BitVec 8)
  /-- `RESET_N_LOW` (R397): RESET_N is held low for 10 µs or more and acts according to the power state. -/
  | resetNLow
  /-- `RESET_N_HIGH` (R397): RESET_N rises, straps are sampled and boot may start. -/
  | resetNHigh (strapsWest strapsEast : BitVec 14)
  /-- `FORD_IDLE_FLIT` (R22): A good idle Ford flit arrives carrying FACK and chunk-credit returns, freeing replay-buffer entries and credits. -/
  | fordIdleFlit (h : Half)
  /-- `FORD_UP` (R290): The initial training of the Ford completes after power-up and STATE leaves TRAINING, letting East leave FORD_WAIT and boot. -/
  | fordUp (lanes : List Nat)
  /-- `CAST_PREPARE` (R361): The non-coordinating half receives CAST_PREPARE, checks the staged values and returns CAST_VOTE. -/
  | castPrepare (h : Half)
  /-- `CAST_VOTE` (R361): The coordinating half receives the commit or abort vote and sends CAST_APPLY with the decision. -/
  | castVote (h : Half)
  /-- `CAST_APPLY` (R361): The other half receives the final decision of a Castling commit or key-slot change and holds it for the target boundary. -/
  | castApply (h : Half)
  /-- `FERRY_ALIGNMENT_BLOCK` (R196): A lane's alignment block arrives; the receiver orders lanes by lane number, checks BIP-8 and reloads the descrambler. -/
  | ferryAlignmentBlock (h : Half) (lane : Nat) (bits : BitVec 340) (bip : BitVec 8)
  /-- `RESYNC_WALK_TILE` (R216): The paced source or receiver walk of a resync reaches its next tile, starting a capture or stream, or sending a PULL for an orphan, and updates its cursor every 4,096 tiles. -/
  | resyncWalkTile (h : Half)
  /-- `SWEEP_WALK_TILE` (R272): The paced rekey sweep reaches the next tile of the slot under the old phase and rewrites, promotes or marks it under the new phase. -/
  | sweepWalkTile (h : Half)
  /-- `RETIREMENT_COPY_DONE` (R119): The copy of a USED frame being retired completes, FRAME moves, the old frame is retired and RETIRE_BANK moves to its next frame. -/
  | retirementCopyDone (h : Half)
  /-- `REGISTER_READ` (R350): A register read from the management function, an LD host, the BMC or firmware latches 64-bit high halves, waits for a pending implicit commit, or on a dark page returns all ones and raises DARK_ACCESS. -/
  | registerRead (org : Origin) (h : Half) (page off : Nat)
  /-- `BMC_BUS_RESET` (R363): A reset of the BMC's I3C bus rolls back the BMC origin's OPEN Castling transaction and discards its transport key. -/
  | bmcBusReset
  /-- `INPUT_POWER_RETURN` (R326): PWRFAIL_N rises again after the ride-through has ended, so input power is present when step 6 is judged and a warm return can follow. -/
  | inputPowerReturn
  /-- `G0_GOOD` (R374): The always-on supply G0 comes up, the always-on island leaves power-on reset, the crystals start, RTC_NOW starts at 0 and EN[0] goes high. -/
  | g0Good
  /-- `G0_REMOVED` (R385): The always-on supply G0 is removed, losing the RTC, the save SRAM and the thermal-trip latch. -/
  | g0Removed
  /-- `SPDM_UNSUPPORTED_REQUEST` (R295): An SPDM request outside the supported set is answered with ERROR UnsupportedRequest. -/
  | spdmUnsupportedRequest (r : Nat)
  /-- `SETDASA` (R346): The BMC assigns a die's I3C target its dynamic address with SETDASA; later BMC accesses are journaled with that address as ORIGIN. -/
  | setdasa (h : Half) (addr : BitVec 7)
  deriving DecidableEq, Repr

end Sys2Proof
end

