-- ==== Sys2Proof/Machine/State.lean ====
section
/-! DEFINITION. The state of the FSC-9418: plain data only. Each field's default is its value at reset, so
that `State.reset` is the record of the defaults. The rule that names a piece of state stands in its comment.
Log entries of notes/assumptions that bear on this file: DESIGN CHOICE 5, DESIGN CHOICE 35. -/

namespace Sys2Proof.Machine

/-! ### Registers, events, journal (chapter 14) -/

/-- A journal entry (R355). -/
structure JEntry where
  time : Nat
  new : Word
  old : Word
  jseq : Nat
  txn : Nat := 0
  result : Nat
  cls : Nat
  org : Nat
  word : Nat
  page : Nat
  half : Half
  deriving DecidableEq, Repr

/-- An event record (R349). -/
structure EvRec where
  time : Nat
  arg1 : Nat
  arg0 : Nat
  evseq : Nat
  page : Nat
  half : Half
  bit : Nat
  deriving DecidableEq, Repr

/-- A 32-bit half of a 64-bit register held for one origin (R350); `key` is page × 1,024 + offset ÷ 4. -/
structure Latch where
  org : Origin
  key : Nat
  val : Word
  deriving DecidableEq, Repr

/-- An implicit commit waiting for its sailing boundary (R359): it applies when a sailing above `after` is open.
`mask` names the written bits; a pair of words stands for a 64-bit register. -/
structure Implicit where
  org : Origin
  key : Nat
  vals : List Word
  after : Nat
  deriving DecidableEq, Repr

/-- A register access that waits for an earlier one of its origin (R347): a read, or a write of a word, with all byte enables
or not. -/
structure Access where
  org : Origin
  addr : Nat
  val : Option Word
  full : Bool := true
  deriving DecidableEq, Repr

/-- Registers, events and journal of one half. -/
structure CtlHalf where
  /-- Every register with storage, by page × 1,024 + offset ÷ 4; an unlisted one holds its Reset value. -/
  regs : SMap Word := []
  /-- The configuration chart in NAND (R364). -/
  chart : SMap Word := []
  /-- `EV_RAW` by page (R348). -/
  evRaw : SMap DWord := []
  /-- `PAGE_JSEQ` by page (R348). -/
  pageJseq : SMap Word := []
  /-- The event ring, newest first, at most 4,096 records (R349). -/
  evRing : List EvRec := []
  evSeq : Nat := 0
  /-- The journal ring, newest first (R356), with the count of unspilled entries. -/
  journal : List JEntry := []
  jseq : Nat := 0
  unspilled : Nat := 0
  /-- The spill area, newest tile first (R356), and spill programs failed in succession. -/
  spill : List (List JEntry) := []
  spillFails : Nat := 0
  rdLatch : List Latch := []
  wrLatch : List Latch := []
  implicit : List Implicit := []
  /-- Reads that wait for an implicit commit of their register (R347): origin, address, and whether the answer goes
  over the Ford. -/
  reads : List (Origin × Nat × Bool) := []
  /-- Origins whose accesses by this half are under way over the Ford, one entry an access, and accesses that wait for them,
  in the order of their issue (R347). -/
  remote : List Origin := []
  waiting : List Access := []
  /-- BMC writes to PWRS and SUPV made while MOORED, at most 64 (R356). -/
  moorLog : List JEntry := []
  deriving DecidableEq, Repr

/-- The states of `CAST.STATUS` (R368). -/
inductive CastState where
  | none | opened | committing | committed | rolledBack | abortConflict | abortCheck | abortTimeout
  | abortSize | abortSplit | abortFull | full | refused
  deriving DecidableEq, Repr

/-- A Castling transaction in its slot (R357, R361). `staged` holds (half, key, value). -/
structure Txn where
  org : Origin
  id : Nat
  committing : Bool := false
  overSize : Bool := false
  staged : List (Half × Nat × Word) := []
  /-- Values before the commit, once applied, for the journal (R361 step 6). -/
  olds : List (Half × Nat × Word) := []
  beginW : Nat
  beginE : Nat
  /-- The half that received `CAST_COMMIT`. -/
  coord : Half := .west
  /-- Target sailing boundary (R361). -/
  target : Nat := 0
  /-- The vote of the other half has been received (or none is needed). -/
  voted : Bool := false
  /-- The decision is held by the other half too. -/
  otherKnows : Bool := false
  appliedW : Bool := false
  appliedE : Bool := false
  deriving DecidableEq, Repr

/-- What `CAST.STATUS`, `ERR` and `ERR_JSEQ` show to one origin (R368). -/
structure CastView where
  org : Origin
  state : CastState
  staged : Nat
  txn : Nat
  err : Word := 0
  errJseq : Word := 0
  deriving DecidableEq, Repr

/-- The Castling table, mirrored in both halves (R357): at most eight transactions. -/
structure CastTable where
  slots : List (Option Txn) := List.replicate 8 none
  count : Nat := 0
  views : List CastView := []
  deriving DecidableEq, Repr

/-! ### Lines and requests -/

/-- Where a request in the fabric came from. -/
inductive ReqSrc where
  /-- A host at (port half, port, context) with the host's tag. -/
  | host (h : Half) (port ctx tag : Nat)
  /-- The other half, as a MEM message with its 12-bit tag (R29). -/
  | ford (tag : Nat)
  /-- A mailbox poison or label command of a context (R79, R81). -/
  | mailbox (h : Half) (ctx : Nat)
  /-- Line recall asked by the peer with its RTAG (R219). -/
  | recall (rtag : Nat)
  /-- A write whose port has been reset: its response is dropped (R85). -/
  | dropped
  deriving DecidableEq, Repr

/-- What a request asks: a read, or a write of the bytes of a mask (R128). -/
inductive ReqKind where
  | read
  | write (data : LineData) (mask : BitVec 64) (poison : Bool)
  deriving DecidableEq, Repr

/-- A request in the home half's fabric. `line` is the line index DPA[51:6]. -/
structure Req where
  src : ReqSrc
  ld : Nat
  line : Nat
  kind : ReqKind
  deriving DecidableEq, Repr

/-- Read data at the visibility floor, or a completion waiting there (R55). -/
structure Floor where
  src : ReqSrc
  ld : Nat
  sailing : Nat
  /-- `none` is a write's completion. -/
  data : Option LineData
  poison : Bool := false
  /-- Whether the line carries a stamp that raises the fence mark (R46). -/
  marks : Bool := true
  deriving DecidableEq, Repr

/-- A completion that waits for the seal of its sailing (Strict mode, poison and label commands). -/
structure Strict where
  src : ReqSrc
  ld : Nat
  sailing : Nat
  /-- A cross-half write, whose acceptance came over the Ford. -/
  cross : Bool := false
  deriving DecidableEq, Repr

/-! ### The Ford (chapter 01) -/

/-- The decision carried by `CAST_APPLY` (R24, R361). -/
inductive FordMsg where
  | beaconOpen (s : Nat)
  | beaconEcho (s : Nat)
  | sealReady (s : Nat)
  | castPrepare (txn target : Nat)
  | castVote (txn : Nat) (commit : Bool)
  | castApply (txn : Nat) (commit : Bool)
  | memRd (line ld tag : Nat)
  | memWr (line ld tag : Nat) (data : LineData)
  | memWrp (line ld tag : Nat) (data : LineData) (mask : BitVec 64)
  /-- `fill` marks the zeros of a BLANK tile, which raise no fence mark (R46; DEDUCED, notes/assumptions/17.md). -/
  | memRdData (tag stamp : Nat) (poison fill : Bool) (data : LineData)
  | memWrAck (tags : List Nat)
  | regRd (org : Origin) (addr : Nat)
  | regWr (org : Origin) (addr : Nat) (val : Word)
  | regResp (org : Origin) (addr : Nat) (val : Word) (ok : Bool)
  | heartbeat (beat : Nat)
  /-- The sibling's notice that a sailing is verified (R208). -/
  | sibVerified (s : Nat)
  deriving DecidableEq, Repr

/-- One half's end of the Ford (R19, R22, R23, R25). -/
structure FordHalf where
  state : FordState := .training
  up0 : Bool := false
  up1 : Bool := false
  /-- Modules that a commit has enabled and that train (R25). -/
  joining : List Nat := []
  repair0 : Nat := 0
  repair1 : Nat := 0
  /-- Sent and not yet received, oldest first, by class C0 to C3. -/
  txq : List FordMsg := []
  /-- Waiting for credits or for room in the replay buffer, oldest first. -/
  waitq : List FordMsg := []
  /-- Chunk credits held, by class (R23). -/
  credits : List Nat := [64, 1024, 1024, 256]
  /-- FSEQ of the next flit to send, and the unacknowledged flits, oldest first (R22). -/
  nextFseq : BitVec 12 := 0
  replayBuf : List (BitVec 12) := []
  /-- FSEQ of the last flit received in order, and whether later flits are being discarded. -/
  lastGood : BitVec 12 := 0xFFF
  discarding : Bool := false
  /-- Consecutive replays since the acknowledged sequence last advanced (R19). -/
  resent : Nat := 0
  /-- Chunk credits this half's receive buffers have freed and not yet returned, by class (R21). -/
  owed : List Nat := [0, 0, 0, 0]
  deriving DecidableEq, Repr

/-- A request of this half's ports that waits for an answer over the Ford, by tag (R29, R30). -/
structure Cross where
  tag : Nat
  src : ReqSrc
  ld : Nat
  isRead : Bool
  deriving DecidableEq, Repr

/-! ### Sailings (chapter 02) -/

/-- The ledger entry of a sailing that is open or unsealed (R136, R201): MIRROR_LINES messages and lines sent. -/
structure Ledger where
  s : Nat
  lines : Nat := 0
  closed : Bool := false
  acked : Bool := false
  readySent : Bool := false
  otherReady : Bool := false
  deriving DecidableEq, Repr

/-- The sailing controller of one half (R66). -/
structure SailHalf where
  current : Nat := 0
  openedAt : Nat := 0
  /-- Length in ns that the open sailing keeps (R37). -/
  length : Nat := 8000
  /-- Highest sailing both halves are known to have opened (R55). -/
  bothOpen : Nat := 0
  sealed : Nat := 0
  mirrored : Nat := 0
  soloFrom : Nat := 0
  /-- First sailing sealed without the other half's `SEAL_READY` in the last Split; 0 is none (R50). -/
  splitFrom : Nat := 0
  ledger : List Ledger := []
  holding : Bool := false
  /-- The backlog limit was reached and the boundary has not yet come (R59). -/
  limitHit : Bool := false
  lfReady : Bool := false
  dirtyOk : Bool := true
  reservation : Nat := 0
  reservePending : Option Nat := none
  floor : List Floor := []
  strict : List Strict := []
  /-- Accepted writes held at the port because of HOLDING (R59), oldest first. -/
  heldWrites : List Req := []
  deriving DecidableEq, Repr

/-! ### Logical devices (chapters 02 to 04) -/

/-- An outstanding fence (R47). -/
structure Fence where
  token : Word
  target : Nat
  deriving DecidableEq, Repr

/-- An extent of an LD (R72), in 64 MiB units of DPA and LDA. -/
structure Extent where
  region : Nat
  lda : Nat
  dpa : Nat
  len : Nat
  /-- The host has released it; it ends when earlier accesses have completed (R74). -/
  releasing : Bool := false
  deriving DecidableEq, Repr

/-- An HDM decoder (R67, R73): base, size and skip in bytes, interleave ways and granularity. -/
structure Hdm where
  base : Nat := 0
  size : Nat := 0
  skip : Nat := 0
  ways : Nat := 1
  gran : Nat := 256
  committed : Bool := false
  error : Bool := false
  deriving DecidableEq, Repr

/-- A CXL event record of an LD's log (R78): which kind, its DPA line or tile, and a kind-specific code. -/
structure CxlEvent where
  kind : CxlEventKind
  addr : Nat
  info : Nat
  time : Nat
  handle : Nat
  deriving DecidableEq, Repr

/-- One of the four event logs with overflow state (R78): at most 64 records, oldest first. -/
structure EventLog where
  records : List CxlEvent := []
  overflow : Nat := 0
  firstOverflow : Nat := 0
  lastOverflow : Nat := 0
  deriving DecidableEq, Repr

/-- A background mailbox command (R78, R79, R82). -/
inductive BgOp where
  | scan (start len : Nat)
  | sanitize
  | secureErase
  deriving DecidableEq, Repr

/-- A stream slot's open window (R115, R116). -/
structure Stream where
  isOpen : Bool := false
  descend : Bool := false
  ahead : Nat := 0
  /-- DPA tile number of position 0, and the number of tiles. -/
  start : Nat := 0
  tiles : Nat := 0
  pos : Nat := 0
  status : Nat := 0
  /-- Time of the last access by the LD in the window. -/
  lastUse : Nat := 0
  deriving DecidableEq, Repr

/-- One LD context of a half (R70). -/
structure LdCtx where
  fences : List Fence := []
  mark : Nat := 0
  lastToken : Word := 0
  doneSeq : Nat := 0
  doneReason : Nat := 0
  doneStatus : Nat := 0
  doneToken : Word := 0
  recIndex : Nat := 0
  recPhase : Bool := true
  extents : List Extent := []
  /-- Dynamic Capacity extents offered to the host and not yet accepted. -/
  offered : List Extent := []
  hdm : List Hdm := List.replicate 8 {}
  logInfo : EventLog := {}
  logWarn : EventLog := {}
  logFail : EventLog := {}
  logFatal : EventLog := {}
  logDc : EventLog := {}
  nextHandle : Nat := 1
  eventPolicy : BitVec 40 := 0
  alertConfig : BitVec 96 := 0
  shutdownDirty : Bool := false
  dirtyCount : Nat := 0
  bg : Option BgOp := none
  /-- Return code of the last background command. -/
  bgReturn : Nat := 0
  scanResults : List (Nat × Nat) := []
  /-- The poison list must be rebuilt by a scan (R79). -/
  poisonOverflow : Bool := true
  poisonOverflowTime : Nat := 0
  mediaDisabled : Bool := false
  writeRefused : Bool := false
  sanitizeTwin : Bool := false
  evLatch : BitVec 11 := 0
  /-- `EV_STATE` as it last stood, to find rises (R77). -/
  evState : BitVec 8 := 0
  streams : List Stream := List.replicate 4 {}
  /-- Requests of this LD accepted and not complete (R74). -/
  inFlight : Nat := 0
  /-- Corrections on the LD's capacity, saturating (R80). -/
  corrected : Nat := 0
  /-- 128 KiB of label storage: bytes other than zero (R81). -/
  labels : List Host.Cell := []
  /-- CXL.io and mailbox foreground state stand at their CXL defaults after a reset (R85). -/
  mboxBusy : Bool := false
  deriving DecidableEq, Repr

/-- One sub-link of a port (R69, R90). -/
structure SubLink where
  cxlMem : Bool := false
  up : Bool := false
  speed : Nat := 0
  width : Nat := 0
  deriving DecidableEq, Repr

/-- A host port (R85, R90). -/
structure PortHalf where
  links : List SubLink := List.replicate 4 {}
  /-- PERST_N level at the port's filter. -/
  perstHigh : Bool := false
  training : Bool := false
  deriving DecidableEq, Repr

/-! ### Tiles, frames and the Manifest (chapter 04) -/

/-- A Manifest entry (R100). -/
structure ManfEntry where
  lastSailing : BitVec 28 := 0
  nand : BitVec 36 := 0xFFFFFFFFF
  ld : BitVec 7 := 0
  phase : Bool := false
  slot : BitVec 10 := 0
  age : BitVec 8 := 0
  stream : Bool := false
  pinned : Bool := false
  frame : BitVec 27 := 0
  state : TileState := .blank
  deriving DecidableEq, Repr

/-- A frame-table entry (R97). -/
structure FrameEntry where
  state : FrameState := .freeRaw
  tile : Nat := 0
  deriving DecidableEq, Repr

/-- A set of the Manifest cache: the tiles cached, by way, and the tree pseudo-LRU bits (R102). -/
structure McSet where
  ways : List (Option Nat) := List.replicate 16 none
  plru : BitVec 15 := 0
  deriving DecidableEq, Repr

/-- A promotion in flight (R105, R106). -/
structure Promo where
  tile : Nat
  /-- The frame taken; none while the promotion waits for one (R110). -/
  frame : Option Nat
  retried : Bool := false
  /-- Lines still to be recalled from the twin (R106 step 2). -/
  recalling : List Nat := []
  poisoned : Nat := 0
  /-- The image read and checked, waiting to be written (R105 step 7). -/
  img : Option TileImg := none
  /-- The tile is being re-homed and not promoted (R330). -/
  rehome : Bool := false
  /-- The tile comes from the twin, its NAND copy being lost (R248, R330). -/
  twin : Bool := false
  deriving DecidableEq, Repr

/-- A sink in flight (R108). -/
structure Sink where
  tile : Nat
  loc : Nat
  img : TileImg
  touched : Bool := false
  deriving DecidableEq, Repr

/-- A running tier command (R118). -/
structure TierCmd where
  op : Nat
  arg : Nat
  /-- Frames of a bank still to retire. -/
  left : List Nat := []
  deriving DecidableEq, Repr

/-- The copy of a frame under retirement (R119). -/
structure RetireCopy where
  old : Nat
  new : Nat
  tile : Nat
  deriving DecidableEq, Repr

/-- The tier engine, the Manifest and the frame table of one half. -/
structure TierHalf where
  /-- `MANF.BACKED` and `MANF.RAW_TILES` (R91). -/
  backed : Nat := 0
  rawTiles : Nat := 0
  /-- Entries other than the BLANK default, by tile number DPA[50:16]. -/
  manf : SMap ManfEntry := []
  mcache : SMap McSet := []
  /-- Manifest as of the newest checkpoints and deltas in NAND (R103). -/
  ckpt : SMap ManfEntry := []
  /-- 4,096-entry blocks changed since their checkpoint, oldest change first (R103). -/
  changed : List Nat := []
  ckptMark : Nat := 0
  /-- Frame-table entries other than FREE_RAW, by frame number (R97). -/
  ftab : SMap FrameEntry := []
  /-- Stored lines of frames, by frame × 1,024 + line; an unlisted line is the formatter's (R97). -/
  dram : SMap SLine := []
  /-- Rotating cursor per LD over subchannels (R96). -/
  cursor : SMap Nat := []
  /-- When each bank last gave a frame, by subchannel × 512 + rank × 32 + bank (R96). -/
  bankUse : SMap Nat := []
  allocCount : Nat := 0
  ageClock : BitVec 8 := 0
  /-- Tiles marked STREAM in marking order (R107). -/
  streamList : List Nat := []
  /-- Where the write-back walk and the eviction walk stopped (R107, R110). -/
  wbCursor : Nat := 0
  evCursor : Nat := 0
  promos : List Promo := []
  sinks : List Sink := []
  /-- Requests that missed the Manifest cache (R27), oldest first. -/
  fetching : List Req := []
  /-- Reads waiting for their DRAM burst (R26), oldest first. -/
  dramReads : List Req := []
  /-- Requests held for their tile (RISING, DARK, no frame, dirty budget), in arrival order (R111). -/
  held : List Req := []
  /-- DARK tiles waiting to be re-homed, head first (R330). -/
  rehome : List Nat := []
  /-- Eviction has started and has not reached its stop mark (R110). -/
  evicting : Bool := false
  dirtyHigh : Bool := false
  dirtyStall : Bool := false
  cmd : Option TierCmd := none
  copying : Option RetireCopy := none
  /-- The retired list in NAND, newest first (R119). -/
  retired : List Nat := []
  undersized : Bool := false
  /-- Images of tiles in NAND, by location (R225). -/
  nand : SMap TileImg := []
  deriving DecidableEq, Repr

/-! ### ECC and the scoresheet (chapter 05) -/

/-- A scoresheet entry (R144). -/
structure ScorEntry where
  last : Nat := 0
  first : Nat := 0
  location : Nat := 0
  count : Nat := 0
  repair : Nat := 0
  ack : Bool := false
  ldValid : Bool := false
  ld : Nat := 0
  syndrome : Nat := 0
  codeword : Nat := 0
  cause : Nat := 0
  cls : Nat := 0
  unit : Nat := 0
  deriving DecidableEq, Repr

/-- A repeat-filter entry (R139). -/
structure Filter where
  unit : Nat
  location : Nat
  codeword : Nat
  syndrome : Nat
  created : Nat
  repeats : Nat := 0
  deriving DecidableEq, Repr

/-- A Heal write-back waiting to issue (R137): the place, the line as read and the corrected line. -/
structure Heal where
  /-- Frame × 1,024 + line, or Landing slot set × 16 + way. -/
  place : Nat
  landing : Bool
  was : SLine
  now : SLine
  deriving DecidableEq, Repr

/-- Where a repair stands (R142, R189). -/
inductive RepairStage where
  | nand
  | sealWait
  | recall
  deriving DecidableEq, Repr

/-- A line under repair (R142, R143): `entry` is its scoresheet index. -/
structure Repair where
  line : Nat
  stage : RepairStage
  entry : Option Nat
  landing : Bool := false
  held : List Req := []
  deriving DecidableEq, Repr

/-- A Tally row's corrections (R138): `again` after a refetch, with the time of that refetch. -/
structure TallyRow where
  unit : Nat
  row : Nat
  count : Nat
  since : Nat
  again : Bool := false
  faulty : Bool := false
  deriving DecidableEq, Repr

/-- ECC state of one half. -/
structure EccHalf where
  sheet : List ScorEntry := List.replicate 256 {}
  newest : Nat := 0
  filter : List Filter := []
  tally : List TallyRow := []
  heals : List Heal := []
  repairs : List Repair := []
  /-- Poison list: DPA line and source (1 Internal, 2 Injected), oldest first, at most 2,048 (R79). -/
  poison : List (Nat × Nat) := []
  /-- Next line the scrub reads, per subchannel (R140). -/
  scrubPos : SMap Nat := []
  scrubStart : Nat := 0
  /-- Frame of each diagnostic frame (R148). -/
  diagFrames : List Nat := []
  /-- Raw lines of diagnostic frames, by diagnostic frame × 1,024 + line. -/
  diag : SMap SLine := []
  injArmed : Bool := false
  deriving DecidableEq, Repr

/-! ### DDR5 channels (chapter 06) -/

/-- A subchannel (R177). -/
structure SubCh where
  state : SubState := .absent
  /-- State to return to after REPLAY, RETRAINING or FREQ_CHANGE. -/
  resume : SubState := .up
  zqRank : Nat := 0
  refreshes : Nat := 0
  scrubBoost : Bool := false
  /-- Drift correction accumulated since training, in fine steps, by device (R173). -/
  drift : List Int := List.replicate 10 0
  /-- Slices of a running drift retrain, from 1; 0 is none (R174). -/
  driftSlices : Nat := 0
  deriving DecidableEq, Repr

/-- A DDR5 channel. -/
structure Chan where
  dimms : Nat := 0
  dimmGb : Nat := 0
  pkgRanks : Nat := 0
  stack : Nat := 0
  density : Nat := 0
  framesPerSub : Nat := 0
  ranks : Nat := 0
  trfc : Nat := 0
  sub0 : SubCh := {}
  sub1 : SubCh := {}
  setB : Bool := false
  hot : Bool := false
  caseTemp : Nat := 0
  trainTemp : Nat := 0
  coolRounds : Nat := 0
  missed : Nat := 0
  /-- Times of failed replays within 1 ms (R165). -/
  replayFails : List Nat := []
  /-- Training arrays of set A and set B, by register word offset (R167, R178). -/
  setArrA : SMap Word := []
  setArrB : SMap Word := []
  /-- DRAM mode registers and RCD control words, by target × 2^12 + rank × 2^8 + address. -/
  modeRegs : SMap Byte := []
  /-- Row held in the row save buffer (R170). -/
  saved : Option (Nat × Nat × Nat) := none
  /-- OP of the running `DTRN` run. -/
  runPending : Option Nat := none
  deriving DecidableEq, Repr

/-- Channels of one half and the ordered change of timing set (R169). -/
structure DramHalf where
  chans : List Chan := List.replicate 12 {}
  freqSel : Bool := false
  /-- Island being changed and the set it moves to. -/
  changing : Option (Nat × Bool) := none
  nextOrder : Option Bool := none
  trained : Bool := false
  deriving DecidableEq, Repr

/-! ### The Landing cache (chapter 07) -/

/-- A way's slot of a set: directory word and line (R179). -/
structure LandEntry where
  tag : Nat
  dirty : Bool
  wbPending : Bool := false
  line : SLine
  deriving DecidableEq, Repr

/-- An eviction-buffer entry (R185): the ciphertext line and whether its DRAM write has issued. -/
structure EvictBuf where
  line : Nat
  frame : Nat
  cipher : SLine
  way : Nat
  deriving DecidableEq, Repr

/-- A running PRELOAD (R187). -/
structure Preload where
  first : Nat
  len : Nat
  way : Nat
  deriving DecidableEq, Repr

/-- The Landing cache of one half. -/
structure LandHalf where
  state : LandState := .enabled
  locked : BitVec 16 := 0
  lfsr : BitVec 24 := 0x5A5A5A
  /-- By set × 16 + way. -/
  slots : SMap LandEntry := []
  buf : List EvictBuf := []
  /-- Ways whose walk runs (R188). -/
  disabling : List Nat := []
  tallyStart : SMap Nat := []
  preload : Option Preload := none
  deriving DecidableEq, Repr

/-! ### The Ferry link (chapter 08) -/

/-- A line of a MIRROR_LINES message (R200). -/
structure MLine where
  line : Nat
  w : BitVec 4
  poison : Bool
  data : LineData
  deriving DecidableEq, Repr

/-- A message of the sailing stream (R198, R199). -/
inductive StreamMsg where
  | mirror (stamp : BitVec 18) (ld : BitVec 7) (slot : BitVec 10) (phase : Bool) (lines : List MLine)
  | close (s : Nat)
  | tileData (img : TileImg)
  | tileMark (lost : Bool) (tile sailing : Nat)
  | keyEvent (op : Nat) (slot : BitVec 10) (phase : Bool) (gen : BitVec 32) (blob : List (BitVec 64))
  deriving DecidableEq, Repr

/-- A control-queue message (R198, R199). -/
inductive CtlMsg where
  | linkCtl (ack : BitVec 12) (nak : Bool)
  | sailingAck (s status : Nat)
  | recallReq (line rtag want : Nat)
  | recallResp (rtag status : Nat) (stamp : BitVec 18) (w : BitVec 4) (poison : Bool) (slot : BitVec 10)
      (phase : Bool) (ld : BitVec 7) (data : LineData)
  | pull (tile : Nat)
  | resyncBegin (s : Nat) (full : Bool)
  | resyncEnd (s : Nat)
  | heartbeat (current : Nat) (solo split resync mgmtW mgmtE : Bool) (ownGen mirGen applied : Nat)
  | rekey (kind epoch : Nat) (payload : List Byte)
  deriving DecidableEq, Repr

/-- A message put on the wire, with its sequence number and slots (R205). -/
structure WireMsg where
  seq : Option Nat
  slots : List (BitVec 256)
  /-- Staging credits that its codewords' headers return (R195). -/
  credit : Nat := 0
  deriving DecidableEq, Repr

/-- Session keys of one direction pair (R204). -/
structure SessKeys where
  macTx : BitVec 256
  macRx : BitVec 256
  wrapTx : BitVec 256
  wrapRx : BitVec 256
  deriving DecidableEq, Repr

/-- A rekey or a set-up in progress (R204, R206). -/
structure RekeyState where
  epoch : Nat
  priv : Nat
  pub : List Byte
  nonce : List Byte
  peerSeen : Bool := false
  newKeys : Option SessKeys := none
  switchSent : Bool := false
  switchSeen : Bool := false
  deriving DecidableEq, Repr

/-- A sailing staged on the twin (R207, R208). -/
structure Staged where
  s : Nat
  msgs : List StreamMsg := []
  /-- Slots of its MIRROR_LINES messages and the first one's sequence number, for the CMAC (R203). -/
  slots : List (BitVec 256) := []
  firstSeq : Option Nat := none
  nMsgs : Nat := 0
  nLines : Nat := 0
  closed : Bool := false
  verified : Bool := false
  split : Bool := false
  deriving DecidableEq, Repr

/-- Why a line is recalled (R219). -/
inductive RecallWhy where
  | repair
  | landing
  | promo
  | rehome
  /-- A read of one line of a dirty DARK tile (R329). -/
  | read
  deriving DecidableEq, Repr

/-- An outstanding recall (R219). -/
structure Recall where
  rtag : Nat
  line : Nat
  want : Nat
  why : RecallWhy
  deriving DecidableEq, Repr

/-- The session's effective settings, taken when it starts (R210, R222). -/
structure PairSet where
  mode : Nat := 0
  slotSplit : Nat := 512
  boundary : Nat := 0
  stageGib : Nat := 1
  lanes : Nat := 0
  deriving DecidableEq, Repr

/-- The Ferry link of one half. -/
structure FeryHalf where
  link : LinkState := .off
  lanesUp : Nat := 0
  halfRate : Bool := false
  eff : PairSet := {}
  keys : Option SessKeys := none
  txSeq : Nat := 0
  rxSeq : Nat := 0
  epoch : Nat := 0
  rekey : Option RekeyState := none
  /-- The transmit sequence at which the next rekey starts (R206). -/
  rekeyAt : Nat := 2 ^ 40
  /-- The peer's identity hash, own hash and the peer's identity key once checked. -/
  peerKey : Option (List Byte) := none
  /-- Heartbeats have been exchanged and the pairing was accepted (R210). -/
  paired : Bool := false
  credits : Nat := 0
  /-- Stream slots still paid for by the credit spent last (R207). -/
  creditSlots : Nat := 0
  creditsDue : Nat := 0
  /-- Sailing stream and control queue waiting to be sent, oldest first (R198). -/
  stream : List StreamMsg := []
  ctlq : List CtlMsg := []
  /-- The sailing being sent: its MIRROR_LINES slots in order, the first one's sequence number, and its line and
  message counts, for the close (R202, R203). -/
  accSlots : List (BitVec 256) := []
  accFirst : Option Nat := none
  accLines : Nat := 0
  accMsgs : Nat := 0
  /-- Messages put on the wire, newest first. -/
  wire : List WireMsg := []
  /-- Codeword layer (R197). -/
  txCseq : BitVec 12 := 0
  replay : List (BitVec 12) := []
  rxCseq : BitVec 12 := 0xFFF
  nakSent : Bool := false
  sinceAck : Nat := 0
  rxSlots : List (BitVec 256) := []
  lfsr : BitVec 31 := 0x7FFFFFFF
  /-- Lane order and BIP-8 of the last alignment blocks, by physical lane (R196). -/
  laneMap : SMap Nat := []
  bipErrors : Nat := 0
  /-- Twin side: staged sailings oldest first, whether stream messages are no longer taken, and slots freed from the ring
  and not yet returned as a credit (R207, R213). -/
  staged : List Staged := []
  stopTaking : Bool := false
  freed : Nat := 0
  /-- Owner side: stream messages are not sent; the twin's copy has been brought up to date since the last loss (R60). -/
  stopSending : Bool := true
  synced : Bool := false
  recalls : List Recall := []
  recallWait : List Recall := []
  nextRtag : Nat := 0
  /-- A resync as its source (R216): S and FULL, the next tile of the walk, the walk's end, tiles whose stream waits for a
  pull, a transition or room, captures that run, and END once sent. -/
  srcOn : Bool := false
  srcFull : Bool := false
  srcS : Nat := 0
  srcPos : Nat := 0
  srcWalked : Bool := false
  streamWait : List Nat := []
  capturing : List Nat := []
  srcEnd : Option Nat := none
  neverSynced : Bool := true
  /-- A resync as its receiver (R216). -/
  rcvOn : Bool := false
  rcvFull : Bool := false
  rcvS : Nat := 0
  rcvPos : Nat := 0
  rcvWalked : Bool := false
  rcvEnd : Option Nat := none
  /-- A range that returns under R215: 1 to this device, 2 from it. -/
  handback : Nat := 0
  /-- The peer as its last `HEARTBEAT` and the session showed it. -/
  peerMode : Nat := 0
  peerCurrent : Nat := 0
  peerApplied : Nat := 0
  peerOwnGen : Nat := 0
  peerMirGen : Nat := 0
  peerMgmtW : Bool := false
  peerMgmtE : Bool := false
  peerSplit : Bool := false
  fenced : Bool := false
  genConflict : Bool := false
  /-- A `PROMOTE` whose record is being written: G and FORCE (R213). -/
  promoting : Option (Nat × Bool) := none
  /-- A `RETRAIN` waits for acknowledgements (R212). -/
  retraining : Bool := false
  /-- A training or set-up has failed and is tried again after 1 s (R409). -/
  retryDue : Bool := false
  deriving DecidableEq, Repr

/-! ### The flash tier (chapter 09) -/

/-- A stripe-table entry (R238); `slc` is the mode it was erased in. -/
structure Stripe where
  erases : Nat := 0
  seq : Nat := 0
  live : Nat := 0
  state : StripeState := .stale
  nextPage : Nat := 0
  slc : Bool := false
  /-- What an open stripe is open for (R237): 0 tile data, 1 reclaim, 2 system region, 3 evacuation reserve. -/
  use : Nat := 0
  /-- A reserve stripe that is erased and has passed its check (R246). -/
  ready : Bool := false
  /-- Pages of the erased check passed so far: first and last page of each plane (R244). -/
  checked : BitVec 8 := 0
  /-- The plane whose program failed; the stripe turns BAD once it holds no live tile (R243). -/
  failed : Option Nat := none
  deriving DecidableEq, Repr

/-- An array operation of a LUN (R230, R234). -/
structure NandOp where
  ring : Nat
  op : Nat
  tag : Nat
  addr : Nat
  plane : Nat := 0
  slc : Bool := false
  oneBlock : Bool := false
  buf : Nat := 0
  retry : Bool := false
  iterMax : Nat := 0
  feat : Nat := 0
  fval : Word := 0
  suspends : Nat := 0
  suspended : Bool := false
  overdue : Bool := false
  issued : Bool := false
  /-- What a program transfers to the die: the tile of BUF, or raw bytes. -/
  img : TileImg := {}
  bytes : List Byte := []
  deriving DecidableEq, Repr

/-- A completion record written to a ring (R231). -/
structure NandComp where
  ring : Nat
  op : Nat
  tag : Nat
  status : Nat
  retry : Nat
  nandSr : Nat
  iter : Nat
  bits : Nat
  suspends : Nat
  elapsed : Nat
  phase : Bool
  deriving DecidableEq, Repr

/-- One flash island. -/
structure FlashIsle where
  /-- State per channel: 0 ABSENT, 1 TRAINING, 2 UP, 3 FAILED (R250). -/
  chans : List Nat := List.replicate 8 0
  /-- Operations queued or running, in order of submission. -/
  ops : List NandOp := []
  comps : List NandComp := []
  /-- Slots used of each completion ring, for PHASE (R231). -/
  ringPos : List Nat := [0, 0, 0, 0]
  /-- Tile buffers, by BUF. -/
  bufs : SMap TileImg := []
  /-- Raw pages and parameter pages returned last (R230), by BUF or diagnostic frame. -/
  rawPages : SMap (List Byte) := []
  diagBusy : Bool := false
  deriving DecidableEq, Repr

/-- The flash tier of one half. -/
structure FlashHalf where
  isles : List FlashIsle := List.replicate 4 {}
  formatted : Bool := false
  formatting : Bool := false
  /-- Geometry of the part (R223): pages per block, stripes per LUN, LUNs, bits per cell. -/
  pages : Nat := 0
  stripesPerLun : Nat := 0
  bits : Nat := 3
  luns : List Nat := []
  failedLuns : List Nat := []
  timeouts : List (Nat × Nat) := []
  /-- Stripe table, by location without PAGE (R225, R238). -/
  stripes : SMap Stripe := []
  /-- Block map, by stripe × 4 + plane: 1 FACTORY_BAD, 2 GROWN_BAD, 3 RESERVED (R241). -/
  blocks : SMap Nat := []
  openSeq : Nat := 0
  maxBudget : Nat := 0
  /-- Programs of each page, by NAND location × 4 + plane, raw content. -/
  raw : SMap (List Byte) := []
  features : SMap Word := []
  deriving DecidableEq, Repr

/-! ### Keys and the cipher engine (chapter 10) -/

/-- A key slot (R253). -/
structure KeySlot where
  k1a : BitVec 256 := 0
  k2a : BitVec 256 := 0
  k1b : BitVec 256 := 0
  k2b : BitVec 256 := 0
  cmac : BitVec 256 := 0
  gen : BitVec 32 := 0
  state : SlotState := .empty
  cur : Bool := false
  loadedA : Bool := false
  loadedB : Bool := false
  owner : Option Nat := none
  walking : Bool := false
  pending : Bool := false
  deriving DecidableEq, Repr

/-- A transport key (R257). -/
structure Transport where
  org : Origin
  key : BitVec 256
  deriving DecidableEq, Repr

/-- A running key command: a slot change agreed over the Ford and taking effect at a boundary (R260, R273, R274). -/
structure KeyCmd where
  org : Origin
  half : Half
  op : Nat
  slot : Nat
  phase : Bool
  /-- K1, K2 and CMAC key to be written. -/
  keys : List (BitVec 256) := []
  /-- Requests on the slot and phase still run (R273). -/
  deferred : Bool := false
  /-- Requests of each half numbered below these came before a deferred load (R273). -/
  beforeW : Nat := 0
  beforeE : Nat := 0
  /-- The exchange's number; the other half's vote is in (or none is needed); the decision is held there too. -/
  id : Nat := 0
  voted : Bool := false
  otherKnows : Bool := false
  target : Nat := 0
  /-- The halves where the change has taken effect. -/
  appliedW : Bool := false
  appliedE : Bool := false
  deriving DecidableEq, Repr

/-- A request of the queued engine (R266). -/
structure CiphReq where
  id : Nat
  bits : BitVec 512
  /-- The SRC buffer's bytes; the trailer follows the data in a tile request. -/
  src : List Byte
  org : Origin
  queuedAt : Nat
  aged : Bool := false
  /-- Core and start order once dispatched. -/
  core : Option Nat := none
  started : Nat := 0
  suspended : Bool := false
  suspends : Nat := 0
  deriving DecidableEq, Repr

/-- A completion of the queued engine with the DST buffer's bytes (R270). -/
structure CiphDone where
  op : Nat
  status : Nat
  tag : Nat
  suspends : Nat
  elapsed : Nat
  dst : List Byte
  deriving DecidableEq, Repr

/-- Keys and cipher engine of one half. -/
structure CiphHalf where
  /-- Slots other than EMPTY at generation 0. -/
  slots : SMap KeySlot := []
  /-- Wrapped slot copies in NAND records, by slot × 2 + phase (R260). -/
  records : SMap (List (BitVec 64)) := []
  queue : List CiphReq := []
  /-- Requests whose submitter waits for a free entry (R265), oldest first. -/
  waiting : List CiphReq := []
  done : List CiphDone := []
  nextId : Nat := 0
  coreFailed : BitVec 4 := 0
  /-- Slots whose erase waits for the Ford (R278). -/
  zeroPending : List Nat := []
  walkEnded : Bool := true
  deriving DecidableEq, Repr

/-- The sweep (R271). -/
structure Sweep where
  slot : Nat
  cursorW : Nat := 0
  cursorE : Nat := 0
  doneW : Bool := false
  doneE : Bool := false
  flipped : Bool := false
  deriving DecidableEq, Repr

/-- Key commands, device-wide (R280). -/
structure KeysDev where
  cmd : Option KeyCmd := none
  /-- Exchanges of key commands over the Ford so far. -/
  count : Nat := 0
  status : Nat := 0
  selected : Nat := 0
  transports : List Transport := []
  sweep : Option Sweep := none
  deriving DecidableEq, Repr

/-! ### Identity and boot (chapter 11) -/

/-- Three copies of an OTP field, read by majority (R282). -/
structure Triple (n : Nat) where
  a : BitVec n := 0
  b : BitVec n := 0
  c : BitVec n := 0
  deriving DecidableEq, Repr

/-- The OTP row of a die (R282). -/
structure OtpRow where
  secret : BitVec 256 := 0
  signer0 : BitVec 512 := 0
  signer1 : BitVec 512 := 0
  serial : BitVec 64 := 0
  config : BitVec 16 := 0
  wcrc : BitVec 32 := 2131868783
  svn : Triple 64 := {}
  lifecycle : Triple 16 := { a := 0x000F, b := 0x000F, c := 0x000F }
  strapLock : Triple 16 := {}
  strapVal : Triple 16 := {}
  revoke : Triple 16 := {}
  repair : BitVec 2272 := 0
  rcrc : BitVec 32 := 1742140337
  deriving DecidableEq, Repr

/-- A record of the supervisor log (R378). -/
structure LogRec where
  typ : Nat
  half : Half
  seq : Nat
  tick : Nat
  payload : List Byte
  deriving DecidableEq, Repr

/-- The boot flash (R286). -/
structure BootFlash where
  slotA : Option Image := none
  slotB : Option Image := none
  cert0 : List Byte := []
  cert1 : List Byte := []
  /-- Newest first. -/
  log : List LogRec := []
  deriving DecidableEq, Repr

/-- One SPDM requester's negotiated state (R296). -/
structure Spdm where
  requester : Nat
  versioned : Bool := false
  caps : Bool := false
  algs : Bool := false
  lastUse : Nat := 0
  chunkIn : List Byte := []
  chunkOut : List Byte := []
  deriving DecidableEq, Repr

/-- Keys derived by the ROM (R284). -/
structure DevKeys where
  identity : Nat
  keyLoad : Nat
  recMac : BitVec 256
  recWrap : BitVec 256
  deriving DecidableEq, Repr

/-- Boot and attestation of one half (R298). -/
structure BootHalf where
  running : Bool := false
  halt : Nat := 0
  recovery : Bool := false
  /-- The image that runs. -/
  image : Option Image := none
  keys : Option DevKeys := none
  /-- Digests 1 to 6 (R294). -/
  meas : List (BitVec 512) := List.replicate 6 0
  /-- Slot that booted: 0 A, 1 B. -/
  slot : Nat := 0
  signer : Nat := 0
  svn : Nat := 0
  version : Nat := 0
  certOk : Bool := false
  /-- Lifecycle state when the ROM ran: entry into RMA takes effect at the next cold start (R297). -/
  life : Nat := 0
  deriving DecidableEq, Repr

/-! ### Power, supplies and heat (chapters 12, 13, 15) -/

/-- The voyage record in NAND (R312). -/
structure Voyage where
  voyage : Nat := 0
  complete : Bool := false
  cause : Nat := 0
  lastAccepted : Nat := 0
  lastSealed : Nat := 0
  lastMirrored : Nat := 0
  triggerTime : Nat := 0
  tiles : Nat := 0
  deltas : Nat := 0
  lineTiles : Nat := 0
  stripes : Nat := 0
  programFails : Nat := 0
  unsent : Nat := 0
  durationUs : Nat := 0
  flags : BitVec 8 := 0
  /-- Stripes listed as erased (R312). -/
  bitmap : List Nat := []
  /-- Line records of part 2 (R308). -/
  lines : List (Nat × SLine) := []
  deriving DecidableEq, Repr

/-- The mooring list in the save SRAM (R317). -/
structure Mooring where
  voyage : Nat
  rws : SMap Word
  chans : List Chan
  deriving DecidableEq, Repr

/-- Power state of one half (R299, R327). -/
structure PwrHalf where
  state : PowerState := .off
  lfStep : Nat := 0
  rearm : Bool := false
  rearmLeft : Nat := 0
  wakeCause : Nat := 0
  /-- Islands powered off by TRIM, failed, and held in reset, by island number (R327, R328). -/
  gated : BitVec 22 := 0
  failed : BitVec 22 := 0
  inReset : BitVec 22 := 0x1FFFFF
  /-- PWRFAIL_N is low; input power present (R303, R326). -/
  pwrfailLow : Bool := false
  rideThrough : Bool := false
  inputBack : Bool := true
  triggers : List Nat := []
  lf : Voyage := {}
  record : Option Voyage := none
  moor : Option Mooring := none
  /-- Seal frames with their VOYAGE (R316), by frame. -/
  sealFrames : List Nat := []
  hostResets : List Nat := []
  resetIgnored : Nat := 0
  resetPending : Bool := false
  started : Bool := false
  /-- Steps 2 to 4 of Last Ferry that have ended, and a wake from MOORED that runs (R307, R322). -/
  flushed : Bool := false
  pushed : Bool := false
  waking : Bool := false
  /-- The voyage record was missing or not complete at the last cold start, and the half's LDs stay refused (R62); the tiles
  whose General Media events `ACCEPT_LOCAL` raises (R63, R64). -/
  refusing : Bool := false
  unsaved : List Nat := []
  deriving DecidableEq, Repr

/-- Management complex of one half (R336, R343). -/
structure MgmtHalf where
  held : Bool := false
  lost : Bool := false
  beat : Nat := 0
  peerBeat : Nat := 0
  peerBeatAt : Nat := 0
  takeover : Bool := false
  /-- Times of losses within the last hour (R337). -/
  losses : List Nat := []
  faultTime : Nat := 0
  deriving DecidableEq, Repr

/-- The supervisor (West's always-on island, R370 to R379). -/
structure Supv where
  g0 : Bool := true
  seq : SupvSeq := .standby
  step : Nat := 0
  good : BitVec 8 := 1
  pg : BitVec 8 := 1
  en : BitVec 8 := 1
  seqIn : Bool := false
  seqOut : Bool := false
  resetN : Bool := false
  tripped : Bool := false
  thermtrip : Bool := false
  /-- The down-sequence running: 0 orderly, 1 mooring, 2 immediate; groups left to switch off, in order. -/
  downKind : Nat := 0
  down : List Nat := []
  /-- A fault stops a new start until SEQ_IN falls and rises or an alarm comes (R377). -/
  faultHold : Bool := false
  upPending : Bool := false
  firstDone : Bool := false
  /-- Rail counters, by rail × 4 + kind (0 UV, 1 OV, 2 CHATTER, 3 TIMEOUT) (R379). -/
  counts : SMap Nat := []
  logSeq : Nat := 0
  logHead : Nat := 0x810000
  /-- Records held in the save SRAM while G1 is down, oldest first (R378). -/
  heldRecs : List LogRec := []
  faultAtStart : Option (Nat × Nat) := none
  alarmDue : Bool := false
  deriving DecidableEq, Repr

/-- Heat and housekeeping of one half (R380 to R389). -/
structure ThrmHalf where
  step : Nat := 0
  held : Bool := false
  warned : Bool := false
  downRounds : Nat := 0
  excluded : BitVec 24 := 0
  deriving DecidableEq, Repr

/-- Straps of one die (R365, R366). -/
structure StrapHalf where
  /-- Pins [13:0] as sampled. -/
  pins : BitVec 14 := 0x1000
  /-- Values in use. -/
  eff : BitVec 14 := 0x1000
  deriving DecidableEq, Repr

/-! ### The whole device -/

/-- Everything one half holds but its OTP row. -/
structure HalfState where
  ctl : CtlHalf := {}
  ford : FordHalf := {}
  sail : SailHalf := {}
  /-- The 64 LD contexts other than their reset value, by context. -/
  lds : SMap LdCtx := []
  ports : List PortHalf := List.replicate 4 {}
  crossing : List Cross := []
  nextTag : Nat := 0
  tier : TierHalf := {}
  ecc : EccHalf := {}
  dram : DramHalf := {}
  land : LandHalf := {}
  fery : FeryHalf := {}
  flash : FlashHalf := {}
  ciph : CiphHalf := {}
  boot : BootHalf := {}
  pwr : PwrHalf := {}
  mgmt : MgmtHalf := {}
  thrm : ThrmHalf := {}
  strap : StrapHalf := {}
  deriving DecidableEq, Repr

/-- What the device has sent to the outside. -/
inductive Output where
  | readData (src : ReqSrc) (data : LineData) (poison : Bool) (devLoad : Nat)
  | completion (src : ReqSrc) (devLoad : Nat)
  | msixLd (ld vec : Nat)
  | msixMgmt (vec : Nat)
  | ibi (h : Half) (page : Nat)
  | fenceRecord (ld addr : Nat) (record : BitVec 128)
  | regValue (org : Origin) (addr : Nat) (val : Word)
  | mailbox (ld opcode code : Nat) (payload : List Nat)
  | fmResponse (op code : Nat) (payload : List Nat)
  | cdat (ld : Nat) (payload : List Nat)
  | spdm (requester code : Nat) (payload : List Byte)
  | gpf (phase : Nat)
  | retrain (h : Half) (port sublink : Nat)
  deriving DecidableEq, Repr

/-- The device without its OTP rows. -/
structure Dev where
  west : HalfState := {}
  east : HalfState := {}
  cast : CastTable := {}
  keys : KeysDev := {}
  supv : Supv := {}
  flash : BootFlash := {}
  spdm : List Spdm := []
  /-- Device time in ns (R349). -/
  time : Nat := 0
  /-- Nanoseconds since G0 came up, from which RTC_NOW is derived (R321). -/
  uptime : Nat := 0
  solo : Bool := true
  split : Bool := false
  /-- The last common sailing and the rejoin sailing (R333, R334). -/
  lastCommon : Nat := 0
  rejoin : Nat := 0
  /-- GPF phase 2 waiting for the seal of its target (R61). -/
  gpf : Option Nat := none
  i3cWest : BitVec 7 := 0
  i3cEast : BitVec 7 := 0
  /-- Messages sent to the outside, newest first. -/
  out : List Output := []
  /-- The model's own counter of free values drawn so far; not state of the device. -/
  freeCtr : Nat := 0
  /-- An `OTPC` command in hand: half, OP and ARG (R297); its pulses are the command's last effect. -/
  otpc : Option (Half × Nat × Nat) := none
  deriving DecidableEq, Repr

/-- The state of the model: the queue of waiting commands, first in first out, the OTP rows of the two dies, and
everything else. -/
structure State where
  pending : List Instr
  otp : Pair OtpRow
  dev : Dev
  deriving DecidableEq, Repr

/-- The machine right after reset: G0 has just come up, nothing else is powered (R374 step 1). -/
def State.reset : State :=
  { pending := [], otp := { west := {}, east := {} }, dev := {} }

/-- Why a step can stop with a fault. No rule of the spec leaves a command without an effect, so there is no
reason: nothing raises a fault, which is safe. -/
inductive Fault where
  deriving DecidableEq, Repr

/-- Why a step can be refused. `notModelled` is raised by an arm of `exec` whose command has no meaning yet, by
its mnemonic; that is safe, since no claim about the command can then be proved. -/
inductive Refusal where
  /-- Raised by an arm without a meaning; safe. -/
  | notModelled (mnemonic : String)
  deriving DecidableEq, Repr

end Sys2Proof.Machine
end

