-- ==== Sys2Proof/Machine/Otp.lean ====
section
/-! DEFINITION. How the counted fields of an OTP row read (R282, R283). -/

namespace Sys2Proof.Machine

/-- Bitwise majority of three copies. -/
def Triple.vote {n : Nat} (t : Triple n) : BitVec n := (t.a &&& t.b) ||| (t.a &&& t.c) ||| (t.b &&& t.c)

/-- The state a LIFECYCLE value reads as: 0 BLANK, 1 TEST, 2 PRODUCTION, 3 RMA, 4 SCRAP (R283). -/
def lifeOf (v : BitVec 16) : Nat :=
  if v &&& 0xFFFF#16 = 0xFFFF#16 then 4
  else if v &&& 0x003F#16 = 0x003F#16 then 3
  else if v &&& 0x000F#16 = 0x000F#16 then 2
  else if v &&& 0x0003#16 = 0x0003#16 then 1
  else 0

/-- Lifecycle state of a row, and whether it is a test state. -/
def OtpRow.life (o : OtpRow) : Nat := lifeOf o.lifecycle.vote
def OtpRow.test (o : OtpRow) : Bool := o.life == 1 || o.life == 3

/-- Set bits counted upwards from bit 0 to the first clear bit. -/
def thermo {n : Nat} (v : BitVec n) : Nat := ((List.range n).takeWhile fun i => v.getLsbD i).length

/-- Security version of a row. -/
def OtpRow.svnOf (o : OtpRow) : Nat := thermo o.svn.vote

/-- The half is in a test state (R283); RMA counts from the cold start after its entry (R297). -/
def Dev.testOn (d : Dev) (o : OtpRow) (h : Half) : Bool :=
  o.life == 1 || (o.life == 3 && (match h with
    | .west => d.west.boot.life
    | .east => d.east.boot.life) == 3)

end Sys2Proof.Machine
end

