-- ==== Sys2Proof/Config.lean ====
section
/-! DEFINITION. The free values: what the spec leaves open and the device chooses. Each is opaque, so no proof can
see its value; a meaning applies it to the model's counter `Dev.freeCtr`, which it then advances, or to the
operands the value depends on (DESIGN CHOICE, notes/assumptions/4.md). -/

namespace Sys2Proof.Config

/-- Random and other unstated bits: DRBG output, nonces, ephemeral secrets, signature nonces, and results
the spec does not state (R259, R204, R296). -/
opaque freeBits : (w : Nat) → Nat → BitVec w

/-- A number the device chooses where the spec gives it a choice (R74: which free extent). -/
opaque freeNat : Nat → Nat

/-- The 452 parity bytes of an LDPC codeword's 4,112 information bytes: the parity-check matrix is no part of the
device's interface (R226, R227). -/
opaque ldpcParity : List (BitVec 8) → BitVec 3616

/-- The parameter page, unique ID or vendor block of a NAND target, which the part supplies (R230). -/
opaque paramPage : Nat → Nat → List (BitVec 8)

/-- The leaf public key of a certificate chain, as x and y of the P-521 point (R285, R295). X.509 parsing is
outside the spec. -/
opaque certLeafKey : List (BitVec 8) → Nat × Nat

/-- Digest of the mask ROM, measurement 1 (R294). -/
opaque romDigest : BitVec 512

/-- What a measurement's digest is taken over, from the measurement's index and the values it covers: no rule gives the
encoding of measurements 2, 5 and 6 (R294). -/
opaque measEncode : Nat → List (BitVec 8) → List (BitVec 8)

/-- Digest of the root certificate of a chain, which SPDM carries with it (R295). -/
opaque certRoot : List (BitVec 8) → BitVec 512

/-- What `PWRS.STATE.STATE` shows in MOORED (0) and in OFF (1), for which the register table gives no code (R299). -/
opaque powerCode : Nat → BitVec 3

/-- Whether a certificate chain is well formed (R285, R295). -/
opaque certOk : List (BitVec 8) → Bool

/-- NAND wear in percent of a half's erase counts, for the life used of R80: no rule gives the part's endurance. -/
opaque nandWear : Nat → Nat

/-- The depth of a port's request queue, which R89 computes DevLoad from and no rule gives. -/
opaque portDepth : Nat

end Sys2Proof.Config
end

