-- ==== Sys2Proof/Machine/RegMap.lean ====
section
/-! DEFINITION. The register map: every page of R352, every register and field with its access code and its
numeric Reset value, as the register tables of the chapters give them, and the ranges of R407. -/

namespace Sys2Proof.Machine

/-- Access codes (R351). -/
inductive Acc where
  | ro | rw | rws | rwi | w1c | wo
  deriving DecidableEq, Repr

/-- A field: bits hi to lo, its access code and numeric Reset value (a value set by a strap or the OTP is
given by `strapReset`). -/
structure Fld where
  hi : Nat
  lo : Nat
  acc : Acc
  reset : Nat
  deriving DecidableEq, Repr

/-- A register, or an array of `n` of them at `stride`. -/
structure Reg where
  off : Nat
  fields : List Fld
  n : Nat := 1
  stride : Nat := 4
  /-- 64 bits wide (R350). -/
  wide : Bool := false
  /-- Device-wide: both halves' copies stay equal. -/
  devWide : Bool := false
  /-- Any non-zero write clears the whole field. -/
  anyClears : Bool := false
  deriving DecidableEq, Repr

/-- The blocks of R352. -/
inductive Block where
  | mgmt | strp | jrnl | cast | otpc | boot | pwrs | supv | thrm | hku | sail | tier | manf | land | scor | eccd
  | fery | ford | ciph | keys | hpt | memc | dtrn | flsh | ldp
  deriving DecidableEq, Repr

/-- The block and instance of a page; `none` is an unassigned page (R352). -/
def blockOf (page : Nat) : Option (Block × Nat) :=
  if page = 0x000 then some (.mgmt, 0) else if page = 0x001 then some (.strp, 0)
  else if page = 0x002 then some (.jrnl, 0) else if page = 0x003 then some (.cast, 0)
  else if page = 0x004 then some (.otpc, 0) else if page = 0x005 then some (.boot, 0)
  else if page = 0x008 then some (.pwrs, 0) else if page = 0x009 then some (.supv, 0)
  else if page = 0x00A then some (.thrm, 0) else if page = 0x00B then some (.hku, 0)
  else if page = 0x010 then some (.sail, 0) else if page = 0x011 then some (.tier, 0)
  else if page = 0x012 then some (.manf, 0) else if page = 0x013 then some (.land, 0)
  else if page = 0x014 then some (.scor, 0) else if page = 0x015 then some (.eccd, 0)
  else if page = 0x016 then some (.fery, 0) else if page = 0x017 then some (.ford, 0)
  else if page = 0x018 then some (.ciph, 0) else if page = 0x019 then some (.keys, 0)
  else if 0x020 ≤ page ∧ page ≤ 0x023 then some (.hpt, page - 0x020)
  else if 0x030 ≤ page ∧ page ≤ 0x03B then some (.memc, page - 0x030)
  else if 0x040 ≤ page ∧ page ≤ 0x04B then some (.dtrn, page - 0x040)
  else if 0x050 ≤ page ∧ page ≤ 0x053 then some (.flsh, page - 0x050)
  else if 0x100 ≤ page ∧ page ≤ 0x13F then some (.ldp, page - 0x100)
  else none

/-- First pages of the blocks (R352). -/
def pgMGMT : Nat := 0x000
def pgSTRP : Nat := 0x001
def pgJRNL : Nat := 0x002
def pgCAST : Nat := 0x003
def pgOTPC : Nat := 0x004
def pgBOOT : Nat := 0x005
def pgPWRS : Nat := 0x008
def pgSUPV : Nat := 0x009
def pgTHRM : Nat := 0x00A
def pgHKU : Nat := 0x00B
def pgSAIL : Nat := 0x010
def pgTIER : Nat := 0x011
def pgMANF : Nat := 0x012
def pgLAND : Nat := 0x013
def pgSCOR : Nat := 0x014
def pgECCD : Nat := 0x015
def pgFERY : Nat := 0x016
def pgFORD : Nat := 0x017
def pgCIPH : Nat := 0x018
def pgKEYS : Nat := 0x019
def pgHPT (p : Nat) : Nat := 0x020 + p
def pgMEMC (c : Nat) : Nat := 0x030 + c
def pgDTRN (c : Nat) : Nat := 0x040 + c
def pgFLSH (i : Nat) : Nat := 0x050 + i
def pgLDP (c : Nat) : Nat := 0x100 + c

/-- Block codes of `PAGE_ID` (R352). -/
def Block.code : Block → Nat
  | .mgmt => 0x01 | .strp => 0x02 | .jrnl => 0x03 | .cast => 0x04 | .otpc => 0x05 | .boot => 0x06
  | .pwrs => 0x07 | .supv => 0x08 | .thrm => 0x09 | .hku => 0x0A | .sail => 0x0B | .tier => 0x0C
  | .manf => 0x0D | .land => 0x0E | .scor => 0x0F | .eccd => 0x10 | .fery => 0x11 | .ford => 0x12
  | .ciph => 0x13 | .keys => 0x14 | .hpt => 0x15 | .memc => 0x16 | .dtrn => 0x17 | .flsh => 0x18 | .ldp => 0x19

/-- The island of a page, by its number in `PWRS.GATED` (R327, R352). -/
def Block.island : Block → Nat → Nat
  | .mgmt, _ | .strp, _ | .jrnl, _ | .cast, _ | .otpc, _ | .boot, _ => 19
  | .pwrs, _ | .supv, _ => 21
  | .thrm, _ | .hku, _ => 20
  | .sail, _ | .tier, _ | .scor, _ | .eccd, _ | .ldp, _ => 17
  | .manf, _ | .land, _ => 18
  | .fery, _ => 14
  | .ford, _ => 15
  | .ciph, _ | .keys, _ => 16
  | .hpt, n => n
  | .memc, n | .dtrn, n => 4 + n / 2
  | .flsh, n => 10 + n

/-- The number of events a block defines, `PAGE_CAPS.EVENTS` (R348 and the event lists of the chapters). -/
def Block.events : Block → Nat
  | .mgmt => 5 | .strp => 1 | .jrnl => 5 | .cast => 3 | .otpc => 3 | .boot => 5 | .pwrs => 9 | .supv => 5
  | .thrm => 5 | .hku => 3 | .sail => 7 | .tier => 7 | .manf => 3 | .land => 5 | .scor => 9 | .eccd => 2
  | .fery => 14 | .ford => 4 | .ciph => 2 | .keys => 7 | .hpt => 6 | .memc => 9 | .dtrn => 1 | .flsh => 10
  | .ldp => 11

/-- The registers every page begins with (R348). -/
def regsCommon : List Reg := [
  { off := 0x000, fields := [⟨31, 0, .ro, 0⟩] }, -- PAGE_ID
  { off := 0x004, fields := [⟨31, 0, .ro, 0⟩] }, -- PAGE_CAPS
  { off := 0x008, fields := [⟨31, 0, .ro, 0⟩] }, -- PAGE_STATUS
  { off := 0x00C, fields := [⟨0, 0, .rw, 0⟩] }, -- PAGE_CTRL
  { off := 0x010, fields := [⟨31, 31, .ro, 0⟩, ⟨9, 9, .rw, 0⟩, ⟨5, 0, .rw, 0⟩] }, -- PAGE_EVSUM
  { off := 0x014, fields := [⟨31, 0, .ro, 0⟩] }, -- PAGE_JSEQ
  { off := 0x020, fields := [⟨63, 0, .ro, 0⟩], wide := true }, -- EV_RAW
  { off := 0x028, fields := [⟨63, 0, .rw, 0⟩], wide := true }, -- EV_MASK
  { off := 0x030, fields := [⟨63, 0, .ro, 0⟩], wide := true }, -- EV_PEND
  { off := 0x038, fields := [⟨63, 0, .wo, 0⟩], wide := true } ] -- EV_CLR

/-- Registers of a `MGMT` page at offset 0x040 and above. -/
def regsMgmt : List Reg := [
  { off := 0x040, fields := [⟨31, 0, .ro, 0⟩] }, -- MGMT.HB
  { off := 0x044, fields := [⟨7, 4, .ro, 0⟩, ⟨3, 3, .ro, 0⟩, ⟨2, 2, .ro, 0⟩, ⟨1, 1, .ro, 0⟩, ⟨0, 0, .ro, 0⟩] }, -- MGMT.STATUS
  { off := 0x048, fields := [⟨3, 0, .rw, 3⟩] }, -- MGMT.CFG
  { off := 0x04C, fields := [⟨21, 0, .ro, 0⟩] }, -- MGMT.ISLAND_FAULT
  { off := 0x050, fields := [⟨63, 0, .ro, 0⟩], wide := true }, -- MGMT.FAULT_TIME
  { off := 0x058, fields := [⟨3, 0, .rwi, 0⟩] } ] -- MGMT.CMD

/-- Registers of a `STRP` page at offset 0x040 and above. -/
def regsStrp : List Reg := [
  { off := 0x040, fields := [⟨16, 16, .ro, 0⟩, ⟨13, 13, .ro, 0⟩, ⟨12, 12, .ro, 0⟩, ⟨11, 10, .ro, 0⟩, ⟨9, 8, .ro, 0⟩, ⟨7, 5, .ro, 0⟩, ⟨4, 2, .ro, 0⟩, ⟨1, 0, .ro, 0⟩] }, -- STRP.PINS
  { off := 0x044, fields := [⟨16, 0, .ro, 0⟩] }, -- STRP.EFFECTIVE
  { off := 0x048, fields := [⟨6, 0, .ro, 0⟩] }, -- STRP.LOCK
  { off := 0x04C, fields := [⟨13, 0, .ro, 0⟩] } ] -- STRP.OTHER

/-- Registers of a `JRNL` page at offset 0x040 and above. -/
def regsJrnl : List Reg := [
  { off := 0x040, fields := [⟨0, 0, .rw, 0⟩] }, -- JRNL.CFG
  { off := 0x044, fields := [⟨31, 31, .ro, 0⟩, ⟨30, 30, .ro, 0⟩, ⟨16, 0, .ro, 0⟩] }, -- JRNL.STATUS
  { off := 0x048, fields := [⟨63, 0, .ro, 0⟩], wide := true }, -- JRNL.HEAD
  { off := 0x050, fields := [⟨63, 0, .ro, 0⟩], wide := true }, -- JRNL.OLDEST
  { off := 0x058, fields := [⟨63, 0, .rwi, 0⟩], wide := true }, -- JRNL.SEL
  { off := 0x060, fields := [⟨31, 30, .ro, 0⟩] }, -- JRNL.SEL_STATUS
  { off := 0x064, fields := [⟨31, 0, .w1c, 0⟩], anyClears := true }, -- JRNL.LOST
  { off := 0x068, fields := [⟨31, 0, .w1c, 0⟩], anyClears := true }, -- JRNL.REFUSED_FULL
  { off := 0x070, fields := [⟨63, 0, .ro, 0⟩], wide := true }, -- JRNL.EV_HEAD
  { off := 0x078, fields := [⟨63, 0, .rwi, 0⟩], wide := true }, -- JRNL.EV_SEL
  { off := 0x080, fields := [⟨31, 0, .ro, 0⟩], n := 8, stride := 4 }, -- JRNL.ENTRY[n]
  { off := 0x0C0, fields := [⟨31, 0, .ro, 0⟩], n := 8, stride := 4 } ] -- JRNL.EV_REC[n]

/-- Registers of a `CAST` page at offset 0x040 and above. -/
def regsCast : List Reg := [
  { off := 0x040, fields := [⟨3, 0, .rwi, 0⟩] }, -- CAST.CMD
  { off := 0x044, fields := [⟨31, 28, .ro, 0⟩, ⟨24, 16, .ro, 0⟩, ⟨15, 0, .ro, 0⟩] }, -- CAST.STATUS
  { off := 0x048, fields := [⟨31, 20, .ro, 0⟩, ⟨19, 19, .ro, 0⟩, ⟨18, 9, .ro, 0⟩] }, -- CAST.ERR
  { off := 0x04C, fields := [⟨31, 0, .ro, 0⟩] }, -- CAST.ERR_JSEQ
  { off := 0x060, fields := [⟨31, 31, .ro, 0⟩, ⟨30, 28, .ro, 0⟩, ⟨27, 20, .ro, 0⟩, ⟨15, 0, .ro, 0⟩], n := 8, stride := 4 } ] -- CAST.SLOT[k]

/-- Registers of a `OTPC` page at offset 0x040 and above. -/
def regsOtpc : List Reg := [
  { off := 0x040, fields := [⟨8, 8, .ro, 0⟩, ⟨2, 0, .ro, 0⟩] }, -- OTPC.LIFECYCLE
  { off := 0x044, fields := [⟨5, 4, .ro, 0⟩, ⟨1, 0, .ro, 0⟩] }, -- OTPC.REVOKE
  { off := 0x048, fields := [⟨6, 0, .ro, 0⟩] }, -- OTPC.SVN
  { off := 0x04C, fields := [⟨29, 16, .ro, 0⟩, ⟨6, 0, .ro, 0⟩] }, -- OTPC.STRAPS
  { off := 0x050, fields := [⟨63, 0, .ro, 0⟩], wide := true }, -- OTPC.SERIAL
  { off := 0x058, fields := [⟨15, 8, .rwi, 0⟩, ⟨3, 0, .rwi, 0⟩] }, -- OTPC.CMD
  { off := 0x05C, fields := [⟨31, 28, .ro, 0⟩] }, -- OTPC.CMD_STATUS
  { off := 0x080, fields := [⟨31, 0, .wo, 0⟩], n := 128, stride := 4 } ] -- OTPC.TOKEN[n]

/-- Registers of a `BOOT` page at offset 0x040 and above. -/
def regsBoot : List Reg := [
  { off := 0x040, fields := [⟨15, 12, .ro, 0⟩, ⟨11, 8, .ro, 0⟩, ⟨4, 4, .ro, 0⟩, ⟨3, 2, .ro, 0⟩, ⟨1, 1, .ro, 0⟩, ⟨0, 0, .ro, 0⟩] }, -- BOOT.STATUS
  { off := 0x044, fields := [⟨31, 0, .ro, 0⟩] }, -- BOOT.FW_VERSION
  { off := 0x048, fields := [⟨6, 0, .ro, 0⟩] }, -- BOOT.FW_SVN
  { off := 0x04C, fields := [⟨31, 0, .ro, 0⟩] }, -- BOOT.TIME_US
  { off := 0x050, fields := [⟨2, 0, .rwi, 0⟩] }, -- BOOT.MEAS_SEL
  { off := 0x054, fields := [⟨3, 0, .ro, 0⟩] }, -- BOOT.HALT
  { off := 0x060, fields := [⟨31, 0, .ro, 0⟩], n := 16, stride := 4 } ] -- BOOT.MEAS_DATA[n]

/-- Registers of a `PWRS` page at offset 0x040 and above. -/
def regsPwrs : List Reg := [
  { off := 0x040, fields := [⟨31, 16, .rws, 2000⟩, ⟨15, 8, .rws, 10⟩, ⟨3, 3, .rws, 0⟩, ⟨2, 2, .rws, 1⟩, ⟨1, 1, .rws, 1⟩], devWide := true }, -- PWRS.CFG
  { off := 0x044, fields := [⟨23, 20, .ro, 0⟩, ⟨19, 16, .ro, 0⟩, ⟨3, 3, .ro, 0⟩, ⟨2, 0, .ro, 0⟩] }, -- PWRS.STATE
  { off := 0x048, fields := [⟨21, 0, .ro, 0⟩] }, -- PWRS.GATED
  { off := 0x04C, fields := [⟨3, 0, .rwi, 0⟩] }, -- PWRS.CMD
  { off := 0x050, fields := [⟨63, 0, .ro, 0⟩], wide := true }, -- PWRS.RTC_NOW
  { off := 0x058, fields := [⟨63, 63, .rws, 0⟩, ⟨62, 0, .rws, 0⟩], wide := true, devWide := true }, -- PWRS.RTC_ALARM
  { off := 0x060, fields := [⟨63, 0, .ro, 0⟩], wide := true }, -- PWRS.VOYAGE
  { off := 0x068, fields := [⟨31, 0, .ro, 0⟩] }, -- PWRS.LF_NEED_US
  { off := 0x06C, fields := [⟨31, 0, .ro, 0⟩] }, -- PWRS.LF_LAST_US
  { off := 0x070, fields := [⟨31, 0, .ro, 0⟩] }, -- PWRS.LF_TILES
  { off := 0x074, fields := [⟨31, 0, .ro, 0⟩] }, -- PWRS.SEAL_FAILS
  { off := 0x078, fields := [⟨31, 0, .w1c, 0⟩], anyClears := true }, -- PWRS.GLITCHES
  { off := 0x080, fields := [⟨63, 0, .ro, 0⟩], wide := true } ] -- PWRS.REARM_LEFT

/-- Registers of a `SUPV` page at offset 0x040 and above. -/
def regsSupv : List Reg := [
  { off := 0x040, fields := [⟨31, 31, .rws, 1⟩, ⟨15, 8, .rws, 10⟩, ⟨7, 0, .rws, 5⟩], n := 8, stride := 4 }, -- SUPV.GRP[n]
  { off := 0x060, fields := [⟨31, 16, .rws, 1000⟩, ⟨15, 8, .rws, 20⟩] }, -- SUPV.CFG
  { off := 0x064, fields := [⟨31, 28, .ro, 1⟩, ⟨27, 24, .ro, 0⟩, ⟨15, 8, .ro, 0⟩, ⟨7, 0, .ro, 0⟩] }, -- SUPV.STATUS
  { off := 0x068, fields := [⟨1, 1, .rwi, 0⟩, ⟨0, 0, .rwi, 0⟩] }, -- SUPV.CTRL
  { off := 0x06C, fields := [⟨15, 0, .rws, 0⟩] }, -- SUPV.G7_NOM
  { off := 0x070, fields := [⟨63, 0, .ro, 0⟩], wide := true }, -- SUPV.FIRST
  { off := 0x078, fields := [⟨63, 0, .ro, 0⟩], wide := true }, -- SUPV.FIRST_TICK
  { off := 0x080, fields := [⟨3, 0, .rwi, 0⟩] }, -- SUPV.CNT_SEL
  { off := 0x088, fields := [⟨63, 0, .ro, 0⟩], wide := true }, -- SUPV.CNT
  { off := 0x090, fields := [⟨31, 0, .ro, 0x810000⟩] }, -- SUPV.LOG_HEAD
  { off := 0x094, fields := [⟨31, 0, .ro, 0⟩] } ] -- SUPV.LOG_SEQ

/-- Registers of a `THRM` page at offset 0x040 and above. -/
def regsThrm : List Reg := [
  { off := 0x040, fields := [⟨23, 16, .rw, 95⟩, ⟨15, 8, .rw, 100⟩, ⟨7, 4, .rw, 3⟩, ⟨3, 0, .rw, 3⟩] }, -- THRM.LIMITS
  { off := 0x044, fields := [⟨31, 24, .ro, 0⟩, ⟨9, 8, .ro, 0⟩, ⟨7, 7, .ro, 0⟩] }, -- THRM.STATUS
  { off := 0x048, fields := [⟨1, 0, .rw, 0⟩] }, -- THRM.FORCE
  { off := 0x04C, fields := [⟨7, 0, .w1c, 0⟩], anyClears := true }, -- THRM.PEAK
  { off := 0x050, fields := [⟨23, 0, .ro, 0⟩] }, -- THRM.STEPS
  { off := 0x054, fields := [⟨23, 0, .ro, 0⟩] }, -- THRM.DIODE_FAIL
  { off := 0x060, fields := [⟨31, 0, .ro, 0⟩], n := 6, stride := 4 } ] -- THRM.TEMP[n]

/-- Registers of a `HKU` page at offset 0x040 and above. -/
def regsHku : List Reg := [
  { off := 0x040, fields := [⟨31, 0, .ro, 0⟩] }, -- HKU.ROUNDS
  { off := 0x044, fields := [⟨31, 0, .w1c, 0⟩], anyClears := true }, -- HKU.LATE
  { off := 0x080, fields := [⟨15, 0, .ro, 0⟩], n := 40, stride := 4 }, -- HKU.VOLT[n]
  { off := 0x120, fields := [⟨15, 0, .ro, 0⟩], n := 8, stride := 4 } ] -- HKU.CURR[n]

/-- Registers of a `SAIL` page at offset 0x040 and above. -/
def regsSail : List Reg := [
  { off := 0x040, fields := [⟨9, 0, .rw, 8⟩], devWide := true }, -- SAIL.LENGTH
  { off := 0x044, fields := [⟨28, 16, .rw, 4096⟩, ⟨0, 0, .rw, 1⟩], devWide := true }, -- SAIL.POLICY
  { off := 0x048, fields := [⟨31, 16, .ro, 0⟩, ⟨7, 7, .ro, 0⟩, ⟨6, 6, .ro, 0⟩, ⟨5, 5, .ro, 0⟩, ⟨4, 4, .ro, 0⟩, ⟨3, 3, .ro, 0⟩, ⟨2, 2, .ro, 1⟩, ⟨1, 1, .ro, 0⟩, ⟨0, 0, .ro, 0⟩] }, -- SAIL.STATUS
  { off := 0x050, fields := [⟨63, 0, .ro, 0⟩], wide := true }, -- SAIL.CURRENT
  { off := 0x058, fields := [⟨63, 0, .ro, 0⟩], wide := true }, -- SAIL.SEALED
  { off := 0x060, fields := [⟨63, 0, .ro, 0⟩], wide := true }, -- SAIL.MIRRORED
  { off := 0x068, fields := [⟨63, 0, .ro, 0⟩], wide := true }, -- SAIL.SOLO_FROM
  { off := 0x070, fields := [⟨15, 0, .rw, 1000⟩], devWide := true }, -- SAIL.FENCE_TIMEOUT
  { off := 0x074, fields := [⟨15, 0, .rw, 0x2710⟩], devWide := true }, -- SAIL.GPF_TIME
  { off := 0x078, fields := [⟨31, 0, .w1c, 0⟩], anyClears := true }, -- SAIL.FLOOR_WAITS
  { off := 0x07C, fields := [⟨31, 0, .w1c, 0⟩], anyClears := true }, -- SAIL.SKEW_LATE
  { off := 0x080, fields := [⟨3, 0, .rwi, 0⟩] } ] -- SAIL.CMD

/-- Registers of a `TIER` page at offset 0x040 and above. -/
def regsTier : List Reg := [
  { off := 0x040, fields := [⟨15, 0, .rw, 256⟩] }, -- TIER.DIRTY_BUDGET
  { off := 0x044, fields := [⟨23, 16, .rw, 4⟩, ⟨15, 8, .rw, 50⟩, ⟨7, 0, .rw, 90⟩] }, -- TIER.WATER
  { off := 0x048, fields := [⟨15, 0, .rw, 4000⟩] }, -- TIER.THROTTLE
  { off := 0x04C, fields := [⟨31, 24, .ro, 0⟩, ⟨15, 0, .rw, 1000⟩] }, -- TIER.AGE
  { off := 0x050, fields := [⟨63, 0, .ro, 0⟩], wide := true }, -- TIER.DIRTY_TILES
  { off := 0x058, fields := [⟨31, 0, .ro, 0⟩] }, -- TIER.POOL_FRAMES
  { off := 0x05C, fields := [⟨31, 0, .ro, 0⟩] }, -- TIER.FREE_FMT
  { off := 0x060, fields := [⟨31, 0, .ro, 0⟩] }, -- TIER.FREE_RAW
  { off := 0x064, fields := [⟨31, 0, .ro, 0⟩] }, -- TIER.RETIRED
  { off := 0x068, fields := [⟨31, 0, .rw, 0x10000⟩] }, -- TIER.FREE_LOW
  { off := 0x06C, fields := [⟨31, 0, .ro, 0⟩] }, -- TIER.PINNED
  { off := 0x070, fields := [⟨63, 0, .rwi, 0⟩], wide := true }, -- TIER.CMD_ARG
  { off := 0x078, fields := [⟨3, 0, .rwi, 0⟩] }, -- TIER.CMD
  { off := 0x07C, fields := [⟨31, 28, .ro, 0⟩, ⟨27, 0, .ro, 0⟩] }, -- TIER.CMD_STATUS
  { off := 0x080, fields := [⟨63, 0, .ro, 0⟩], wide := true }, -- TIER.WB_TILES
  { off := 0x088, fields := [⟨63, 0, .ro, 0⟩], wide := true } ] -- TIER.PROMOTED

/-- Registers of a `MANF` page at offset 0x040 and above. -/
def regsManf : List Reg := [
  { off := 0x040, fields := [⟨63, 0, .ro, 0⟩], wide := true }, -- MANF.BACKED
  { off := 0x048, fields := [⟨63, 0, .ro, 0⟩], wide := true }, -- MANF.RAW_TILES
  { off := 0x050, fields := [⟨63, 0, .ro, 0⟩], wide := true }, -- MANF.CACHE_HIT
  { off := 0x058, fields := [⟨63, 0, .ro, 0⟩], wide := true }, -- MANF.CACHE_MISS
  { off := 0x060, fields := [⟨63, 0, .ro, 0⟩], n := 8, stride := 8, wide := true }, -- MANF.STATE_CNT[k]
  { off := 0x0A0, fields := [⟨35, 0, .rwi, 0⟩], wide := true }, -- MANF.PEEK
  { off := 0x0B0, fields := [⟨31, 0, .ro, 0⟩], n := 4, stride := 4 } ] -- MANF.PEEK_ENTRY[n]

/-- Registers of a `LAND` page at offset 0x040 and above. -/
def regsLand : List Reg := [
  { off := 0x040, fields := [⟨1, 1, .rw, 1⟩, ⟨0, 0, .rw, 1⟩] }, -- LAND.CTRL
  { off := 0x044, fields := [⟨1, 0, .ro, 0⟩] }, -- LAND.STATUS
  { off := 0x048, fields := [⟨31, 16, .ro, 0⟩, ⟨15, 0, .rw, 0xffff⟩] }, -- LAND.WAYS
  { off := 0x04C, fields := [⟨15, 0, .rw, 32⟩] }, -- LAND.WAY_THRESH
  { off := 0x050, fields := [⟨45, 0, .rwi, 0⟩], wide := true }, -- LAND.CMD_ARG
  { off := 0x058, fields := [⟨17, 0, .rwi, 0⟩] }, -- LAND.CMD_LEN
  { off := 0x05C, fields := [⟨19, 16, .rwi, 0⟩, ⟨3, 0, .rwi, 0⟩] }, -- LAND.CMD
  { off := 0x060, fields := [⟨31, 28, .ro, 0⟩, ⟨17, 0, .ro, 0⟩] }, -- LAND.CMD_STATUS
  { off := 0x064, fields := [⟨23, 0, .ro, 0x5a5a5a⟩] }, -- LAND.LFSR
  { off := 0x068, fields := [⟨21, 0, .ro, 0⟩] }, -- LAND.DIRTY_LINES
  { off := 0x080, fields := [⟨15, 0, .ro, 0⟩], n := 16, stride := 4 }, -- LAND.WAY_TALLY[w]
  { off := 0x0C0, fields := [⟨63, 0, .ro, 0⟩], wide := true }, -- LAND.HIT
  { off := 0x0C8, fields := [⟨63, 0, .ro, 0⟩], wide := true }, -- LAND.MISS
  { off := 0x0D0, fields := [⟨63, 0, .ro, 0⟩], wide := true } ] -- LAND.EVICT_WB

/-- Registers of a `SCOR` page at offset 0x040 and above. -/
def regsScor : List Reg := [
  { off := 0x040, fields := [⟨31, 31, .rw, 1⟩, ⟨7, 0, .rw, 24⟩] }, -- SCOR.SCRUB_CFG
  { off := 0x044, fields := [⟨31, 16, .ro, 0⟩, ⟨7, 7, .ro, 0⟩, ⟨6, 0, .ro, 0⟩] }, -- SCOR.SCRUB_STATUS
  { off := 0x048, fields := [⟨13, 0, .rw, 500⟩] }, -- SCOR.REPAIR_HOLD
  { off := 0x04C, fields := [⟨13, 0, .rw, 1440⟩] }, -- SCOR.REPEAT_WIN
  { off := 0x050, fields := [⟨7, 0, .rwi, 0⟩] }, -- SCOR.SEL
  { off := 0x054, fields := [⟨7, 0, .rwi, 0⟩] }, -- SCOR.ACK
  { off := 0x058, fields := [⟨31, 24, .ro, 0⟩, ⟨17, 9, .ro, 0⟩, ⟨8, 0, .ro, 0⟩] }, -- SCOR.FILL
  { off := 0x060, fields := [⟨31, 0, .ro, 0⟩], n := 8, stride := 4 }, -- SCOR.ENTRY[n]
  { off := 0x080, fields := [⟨63, 0, .ro, 0⟩], wide := true }, -- SCOR.CE_HEAL
  { off := 0x088, fields := [⟨63, 0, .ro, 0⟩], wide := true }, -- SCOR.CE_TALLY
  { off := 0x090, fields := [⟨63, 0, .ro, 0⟩], wide := true }, -- SCOR.UE
  { off := 0x098, fields := [⟨31, 0, .w1c, 0⟩], anyClears := true }, -- SCOR.DROPPED
  { off := 0x09C, fields := [⟨12, 0, .ro, 0⟩] }, -- SCOR.FILTER_USE
  { off := 0x0A0, fields := [⟨23, 16, .ro, 0⟩, ⟨15, 8, .ro, 0⟩, ⟨7, 0, .ro, 0⟩] } ] -- SCOR.SRAM_FAULTY

/-- Registers of a `ECCD` page at offset 0x040 and above. -/
def regsEccd : List Reg := [
  { off := 0x040, fields := [⟨27, 24, .rw, 0⟩, ⟨9, 0, .rw, 0⟩] }, -- ECCD.TARGET
  { off := 0x048, fields := [⟨51, 6, .rw, 0⟩], wide := true }, -- ECCD.DPA
  { off := 0x050, fields := [⟨31, 0, .rw, 0⟩], n := 16, stride := 4 }, -- ECCD.WDATA[n]
  { off := 0x090, fields := [⟨31, 0, .rw, 0⟩], n := 4, stride := 4 }, -- ECCD.WSIDE[n]
  { off := 0x0A0, fields := [⟨12, 8, .rwi, 0⟩, ⟨2, 0, .rwi, 0⟩] }, -- ECCD.CMD
  { off := 0x0A4, fields := [⟨31, 30, .ro, 0⟩, ⟨16, 16, .ro, 0⟩, ⟨15, 14, .ro, 0⟩, ⟨13, 0, .ro, 0⟩] }, -- ECCD.RESULT
  { off := 0x0A8, fields := [⟨31, 0, .ro, 0⟩] }, -- ECCD.SYND0
  { off := 0x0AC, fields := [⟨31, 0, .ro, 0⟩] }, -- ECCD.SYND1
  { off := 0x0B0, fields := [⟨19, 0, .ro, 0⟩] }, -- ECCD.CRC_DIFF
  { off := 0x0C0, fields := [⟨31, 0, .ro, 0⟩], n := 16, stride := 4 }, -- ECCD.RDATA[n]
  { off := 0x100, fields := [⟨31, 0, .ro, 0⟩], n := 4, stride := 4 }, -- ECCD.RSIDE[n]
  { off := 0x110, fields := [⟨31, 0, .ro, 0⟩], n := 4, stride := 4 }, -- ECCD.DIAG_SUBCH[k]
  { off := 0x120, fields := [⟨31, 31, .rwi, 0⟩, ⟨27, 24, .rw, 0⟩, ⟨16, 16, .rw, 0⟩, ⟨15, 8, .rw, 0⟩] }, -- ECCD.SRAM_INJ
  { off := 0x124, fields := [⟨31, 31, .ro, 0⟩, ⟨30, 30, .ro, 0⟩, ⟨23, 0, .ro, 0⟩] } ] -- ECCD.SELFTEST

/-- Registers of a `FERY` page at offset 0x040 and above. -/
def regsFery : List Reg := [
  { off := 0x040, fields := [⟨31, 16, .rw, 50⟩, ⟨11, 11, .rw, 1⟩, ⟨9, 8, .rw, 0⟩, ⟨0, 0, .rw, 1⟩] }, -- FERY.CFG
  { off := 0x044, fields := [⟨26, 16, .rw, 512⟩, ⟨2, 0, .rw, 0⟩], devWide := true }, -- FERY.PAIR
  { off := 0x048, fields := [⟨22, 0, .rw, 0⟩], devWide := true }, -- FERY.BOUNDARY
  { off := 0x04C, fields := [⟨4, 0, .rw, 1⟩], devWide := true }, -- FERY.STAGE
  { off := 0x050, fields := [⟨31, 29, .ro, 0⟩, ⟨28, 24, .ro, 0⟩, ⟨23, 23, .ro, 0⟩, ⟨22, 21, .ro, 0⟩, ⟨20, 20, .ro, 0⟩, ⟨19, 18, .ro, 0⟩, ⟨17, 17, .ro, 0⟩, ⟨15, 0, .ro, 0⟩] }, -- FERY.STATUS
  { off := 0x054, fields := [⟨18, 0, .ro, 0⟩] }, -- FERY.CREDITS
  { off := 0x058, fields := [⟨63, 0, .ro, 0⟩], wide := true }, -- FERY.OWN_GEN
  { off := 0x060, fields := [⟨63, 0, .ro, 0⟩], wide := true }, -- FERY.MIR_GEN
  { off := 0x068, fields := [⟨63, 0, .ro, 0⟩], wide := true }, -- FERY.PROMOTED_AT
  { off := 0x070, fields := [⟨31, 0, .rw, 0⟩], n := 8, stride := 4 }, -- FERY.PEER_HASH[n]
  { off := 0x090, fields := [⟨63, 0, .ro, 0⟩], wide := true }, -- FERY.APPLIED
  { off := 0x098, fields := [⟨63, 0, .ro, 0⟩], wide := true }, -- FERY.SIB_VERIFIED
  { off := 0x0A0, fields := [⟨63, 0, .ro, 0⟩], wide := true }, -- FERY.RESYNC_S
  { off := 0x0A8, fields := [⟨63, 0, .ro, 0⟩], wide := true }, -- FERY.CURSOR
  { off := 0x0B0, fields := [⟨63, 0, .ro, 0⟩], wide := true }, -- FERY.CW_CORR
  { off := 0x0B8, fields := [⟨63, 0, .ro, 0⟩], wide := true }, -- FERY.CW_UNCORR
  { off := 0x0C0, fields := [⟨31, 0, .w1c, 0⟩], anyClears := true }, -- FERY.REPLAYS
  { off := 0x0C8, fields := [⟨3, 0, .rwi, 0⟩] }, -- FERY.CMD
  { off := 0x0CC, fields := [⟨31, 28, .ro, 0⟩] }, -- FERY.CMD_STATUS
  { off := 0x0D0, fields := [⟨63, 0, .rwi, 0⟩], wide := true }, -- FERY.CMD_ARG
  { off := 0x0D8, fields := [⟨63, 0, .ro, 0⟩], wide := true }, -- FERY.TX_SEQ
  { off := 0x0E0, fields := [⟨63, 0, .ro, 0⟩], wide := true }, -- FERY.RX_SEQ
  { off := 0x0E8, fields := [⟨63, 0, .ro, 0⟩], wide := true }, -- FERY.EPOCH
  { off := 0x0F0, fields := [⟨63, 0, .ro, 0⟩], wide := true }, -- FERY.RESYNC_TILES
  { off := 0x0F8, fields := [⟨63, 0, .ro, 0⟩], wide := true } ] -- FERY.RECALLS

/-- Registers of a `FORD` page at offset 0x040 and above. -/
def regsFord : List Reg := [
  { off := 0x040, fields := [⟨2, 1, .rw, 3⟩, ⟨0, 0, .rwi, 0⟩], devWide := true }, -- FORD.CTRL
  { off := 0x044, fields := [⟨10, 8, .ro, 0⟩, ⟨7, 5, .ro, 0⟩, ⟨4, 3, .ro, 0⟩, ⟨2, 0, .ro, 1⟩] }, -- FORD.STATUS
  { off := 0x050, fields := [⟨63, 0, .ro, 0⟩], wide := true }, -- FORD.CROSS_RD
  { off := 0x058, fields := [⟨63, 0, .ro, 0⟩], wide := true }, -- FORD.CROSS_WR
  { off := 0x060, fields := [⟨31, 0, .w1c, 0⟩], anyClears := true } ] -- FORD.REPLAY_CNT

/-- Registers of a `CIPH` page at offset 0x040 and above. -/
def regsCiph : List Reg := [
  { off := 0x040, fields := [⟨3, 0, .rw, 15⟩] }, -- CIPH.CFG
  { off := 0x044, fields := [⟨23, 20, .ro, 0⟩, ⟨19, 16, .ro, 0⟩, ⟨8, 0, .ro, 0⟩] }, -- CIPH.STATUS
  { off := 0x048, fields := [⟨63, 0, .ro, 0⟩], n := 4, stride := 8, wide := true }, -- CIPH.DONE[k]
  { off := 0x068, fields := [⟨63, 0, .ro, 0⟩], wide := true }, -- CIPH.SUSPENDS
  { off := 0x070, fields := [⟨31, 0, .w1c, 0⟩], anyClears := true }, -- CIPH.CMAC_FAIL
  { off := 0x074, fields := [⟨31, 0, .w1c, 0⟩], anyClears := true }, -- CIPH.KEY_ERASED
  { off := 0x078, fields := [⟨31, 0, .w1c, 0⟩], anyClears := true }, -- CIPH.NOKEY_READS
  { off := 0x07C, fields := [⟨3, 0, .ro, 0⟩] } ] -- CIPH.KAT

/-- Registers of a `KEYS` page at offset 0x040 and above. -/
def regsKeys : List Reg := [
  { off := 0x040, fields := [⟨14, 14, .rwi, 0⟩, ⟨13, 4, .rwi, 0⟩, ⟨3, 0, .rwi, 0⟩] }, -- KEYS.CMD
  { off := 0x044, fields := [⟨31, 28, .ro, 0⟩] }, -- KEYS.CMD_STATUS
  { off := 0x048, fields := [⟨31, 29, .ro, 0⟩, ⟨28, 28, .ro, 0⟩, ⟨27, 26, .ro, 0⟩, ⟨25, 25, .ro, 0⟩, ⟨24, 24, .ro, 0⟩, ⟨23, 23, .ro, 0⟩, ⟨22, 16, .ro, 0⟩] }, -- KEYS.SLOT_STATUS
  { off := 0x04C, fields := [⟨31, 0, .ro, 0⟩] }, -- KEYS.GEN
  { off := 0x050, fields := [⟨63, 0, .ro, 0⟩], wide := true }, -- KEYS.USERS
  { off := 0x058, fields := [⟨31, 31, .ro, 0⟩, ⟨9, 0, .ro, 0⟩] }, -- KEYS.SWEEP
  { off := 0x060, fields := [⟨63, 0, .ro, 0⟩], wide := true }, -- KEYS.SWEEP_CURSOR
  { off := 0x068, fields := [⟨7, 0, .rw, 16⟩] }, -- KEYS.SWEEP_RATE
  { off := 0x06C, fields := [⟨31, 0, .ro, 0⟩] }, -- KEYS.COUNTS
  { off := 0x100, fields := [⟨31, 0, .wo, 0⟩], n := 36, stride := 4 }, -- KEYS.BLOB[n]
  { off := 0x200, fields := [⟨31, 0, .ro, 0⟩], n := 34, stride := 4 }, -- KEYS.KLPUB[n]
  { off := 0x290, fields := [⟨31, 0, .ro, 0⟩], n := 33, stride := 4 } ] -- KEYS.KLSIG[n]

/-- Registers of a `HPT` page at offset 0x040 and above. -/
def regsHpt : List Reg := [
  { off := 0x040, fields := [⟨7, 7, .rw, 0⟩, ⟨6, 6, .rw, 0⟩, ⟨5, 4, .rw, 0⟩, ⟨1, 0, .rw, 0⟩] }, -- HPT.CFG
  { off := 0x044, fields := [⟨31, 0, .ro, 0⟩] }, -- HPT.LINK_STATUS
  { off := 0x048, fields := [⟨4, 3, .rw, 0⟩, ⟨2, 0, .rw, 0⟩], devWide := true }, -- HPT.MGMT
  { off := 0x050, fields := [⟨63, 0, .ro, 0⟩], wide := true }, -- HPT.RD_LINES
  { off := 0x058, fields := [⟨63, 0, .ro, 0⟩], wide := true }, -- HPT.WR_LINES
  { off := 0x060, fields := [⟨31, 0, .w1c, 0⟩], anyClears := true } ] -- HPT.UNMAPPED

/-- Registers of a `MEMC` page at offset 0x040 and above. -/
def regsMemc : List Reg := [
  { off := 0x040, fields := [⟨31, 16, .rw, 200⟩, ⟨13, 8, .rw, 30⟩, ⟨1, 0, .rw, 3⟩] }, -- MEMC.CFG
  { off := 0x044, fields := [⟨31, 28, .ro, 0⟩, ⟨27, 24, .ro, 0⟩, ⟨17, 17, .ro, 0⟩, ⟨16, 16, .ro, 0⟩, ⟨15, 8, .ro, 0⟩] }, -- MEMC.STATUS
  { off := 0x048, fields := [⟨31, 23, .ro, 0⟩, ⟨22, 21, .ro, 0⟩, ⟨20, 19, .ro, 0⟩, ⟨18, 17, .ro, 0⟩, ⟨16, 15, .ro, 0⟩] }, -- MEMC.POP
  { off := 0x04C, fields := [⟨22, 0, .ro, 0⟩] }, -- MEMC.FRAMES
  { off := 0x050, fields := [⟨31, 16, .ro, 4800⟩, ⟨15, 0, .ro, 0⟩] }, -- MEMC.SPEED
  { off := 0x054, fields := [⟨0, 0, .rwi, 0⟩] }, -- MEMC.FREQ
  { off := 0x058, fields := [⟨31, 16, .ro, 3900⟩, ⟨15, 0, .ro, 0⟩] }, -- MEMC.REFRESH
  { off := 0x05C, fields := [⟨6, 0, .ro, 100⟩] }, -- MEMC.RATE
  { off := 0x060, fields := [⟨31, 16, .rw, 100⟩, ⟨7, 0, .rw, 10⟩] }, -- MEMC.DRIFT
  { off := 0x068, fields := [⟨31, 0, .w1c, 0⟩], anyClears := true }, -- MEMC.ALERTS
  { off := 0x06C, fields := [⟨31, 0, .w1c, 0⟩], anyClears := true }, -- MEMC.REPLAY_FAIL
  { off := 0x070, fields := [⟨31, 0, .w1c, 0⟩], anyClears := true }, -- MEMC.REF_LATE
  { off := 0x074, fields := [⟨31, 0, .ro, 0⟩] }, -- MEMC.SR_ENTRIES
  { off := 0x078, fields := [⟨63, 0, .ro, 0⟩], wide := true }, -- MEMC.RD_LINES
  { off := 0x080, fields := [⟨63, 0, .ro, 0⟩], wide := true } ] -- MEMC.WR_LINES

/-- Registers of a `DTRN` page at offset 0x040 and above. -/
def regsDtrn : List Reg := [
  { off := 0x040, fields := [⟨31, 31, .rw, 0⟩, ⟨27, 26, .rw, 3⟩, ⟨24, 24, .rw, 0⟩, ⟨23, 20, .rw, 0⟩, ⟨19, 15, .rw, 0⟩] }, -- DTRN.CTL
  { off := 0x044, fields := [⟨17, 0, .rw, 0⟩] }, -- DTRN.ROW
  { off := 0x048, fields := [⟨31, 30, .rw, 0⟩, ⟨18, 16, .rw, 0⟩] }, -- DTRN.PAT
  { off := 0x04C, fields := [⟨30, 0, .rw, 0x7fffffff⟩] }, -- DTRN.SEED
  { off := 0x050, fields := [⟨31, 16, .rwi, 0⟩, ⟨15, 8, .rwi, 0⟩, ⟨3, 0, .rwi, 0⟩] }, -- DTRN.RUN
  { off := 0x054, fields := [⟨31, 30, .ro, 0⟩, ⟨15, 0, .ro, 0⟩] }, -- DTRN.RUN_STATUS
  { off := 0x058, fields := [⟨31, 31, .rwi, 0⟩, ⟨30, 30, .rwi, 0⟩, ⟨27, 24, .rwi, 0⟩, ⟨23, 16, .rwi, 0⟩, ⟨7, 0, .rwi, 0⟩] }, -- DTRN.MRW
  { off := 0x060, fields := [⟨31, 0, .ro, 0⟩], n := 3, stride := 4 }, -- DTRN.FAIL_MASK[n]
  { off := 0x070, fields := [⟨31, 0, .ro, 0⟩], n := 40, stride := 4 }, -- DTRN.LANE_ERR[k]
  { off := 0x180, fields := [⟨31, 0, .rw, 0⟩], n := 160, stride := 4 }, -- DTRN.USER[n]
  { off := 0x400, fields := [⟨11, 0, .rw, 0⟩], n := 80, stride := 4 }, -- DTRN.WR_DLY[k]
  { off := 0x540, fields := [⟨11, 0, .rw, 0⟩], n := 80, stride := 4 }, -- DTRN.RD_DLY[k]
  { off := 0x680, fields := [⟨11, 0, .rw, 0⟩], n := 20, stride := 4 }, -- DTRN.WL_DLY[d]
  { off := 0x6D0, fields := [⟨11, 0, .rw, 0⟩], n := 20, stride := 4 }, -- DTRN.GATE_DLY[d]
  { off := 0x720, fields := [⟨11, 0, .rw, 0⟩], n := 20, stride := 4 }, -- DTRN.CA_DLY[p]
  { off := 0x770, fields := [⟨7, 0, .rw, 50⟩], n := 80, stride := 4 }, -- DTRN.RX_VREF[k]
  { off := 0x900, fields := [⟨31, 0, .rw, 0⟩], n := 64, stride := 4 } ] -- DTRN.MR_IMAGE[n]

/-- Registers of a `FLSH` page at offset 0x040 and above. -/
def regsFlsh : List Reg := [
  { off := 0x040, fields := [⟨23, 16, .rw, 255⟩, ⟨11, 0, .rw, 3600⟩] }, -- FLSH.CFG
  { off := 0x044, fields := [⟨15, 0, .ro, 0⟩] }, -- FLSH.STATUS
  { off := 0x048, fields := [⟨19, 16, .rw, 15⟩, ⟨15, 8, .rw, 4⟩, ⟨7, 0, .rw, 20⟩] }, -- FLSH.LDPC
  { off := 0x04C, fields := [⟨31, 16, .rw, 100⟩, ⟨15, 8, .rw, 4⟩] }, -- FLSH.LIMITS
  { off := 0x050, fields := [⟨15, 0, .rw, 64⟩] }, -- FLSH.ERASED_CHK
  { off := 0x058, fields := [⟨15, 0, .rw, 256⟩] }, -- FLSH.MAX_BUDGET
  { off := 0x05C, fields := [⟨15, 0, .ro, 0⟩] }, -- FLSH.POOL_MINUTES
  { off := 0x060, fields := [⟨63, 0, .ro, 0⟩], wide := true }, -- FLSH.POOL_ERASED
  { off := 0x068, fields := [⟨63, 0, .ro, 0⟩], wide := true }, -- FLSH.POOL_TARGET
  { off := 0x070, fields := [⟨63, 0, .ro, 0⟩], wide := true }, -- FLSH.OP_LEFT
  { off := 0x078, fields := [⟨3, 0, .rwi, 0⟩] }, -- FLSH.CMD
  { off := 0x07C, fields := [⟨31, 28, .ro, 0⟩, ⟨6, 0, .ro, 0⟩] }, -- FLSH.CMD_STATUS
  { off := 0x080, fields := [⟨31, 0, .rw, 0⟩], n := 16, stride := 4 }, -- FLSH.DIAG_DESC[n]
  { off := 0x0C0, fields := [⟨31, 31, .rwi, 0⟩, ⟨5, 4, .ro, 0⟩, ⟨3, 0, .rw, 0⟩] }, -- FLSH.DIAG_CMD
  { off := 0x0C4, fields := [⟨31, 0, .ro, 0⟩], n := 4, stride := 4 }, -- FLSH.DIAG_COMP[n]
  { off := 0x0E0, fields := [⟨63, 0, .ro, 0⟩], wide := true }, -- FLSH.READS
  { off := 0x0E8, fields := [⟨63, 0, .ro, 0⟩], wide := true }, -- FLSH.PROGRAMS
  { off := 0x0F0, fields := [⟨63, 0, .ro, 0⟩], wide := true }, -- FLSH.ERASES
  { off := 0x0F8, fields := [⟨63, 0, .ro, 0⟩], wide := true }, -- FLSH.SUSPENDS
  { off := 0x100, fields := [⟨31, 0, .w1c, 0⟩], anyClears := true }, -- FLSH.UNCORR
  { off := 0x104, fields := [⟨31, 0, .w1c, 0⟩], anyClears := true }, -- FLSH.TIMEOUTS
  { off := 0x108, fields := [⟨31, 0, .ro, 0⟩] } ] -- FLSH.GROWN_BAD

/-- Registers of a `LDP` page at offset 0x040 and above. -/
def regsLdp : List Reg := [
  { off := 0x040, fields := [⟨31, 31, .rw, 1⟩, ⟨22, 16, .rw, 0⟩, ⟨11, 8, .rw, 0⟩, ⟨5, 4, .rw, 0⟩, ⟨1, 0, .rw, 0⟩] }, -- LDP.BIND
  { off := 0x048, fields := [⟨51, 28, .rw, 0⟩], wide := true }, -- LDP.STATIC_BASE
  { off := 0x050, fields := [⟨23, 0, .rw, 0⟩] }, -- LDP.STATIC_SIZE
  { off := 0x054, fields := [⟨29, 8, .rw, 0⟩, ⟨5, 4, .rw, 0⟩, ⟨3, 0, .rw, 0⟩] }, -- LDP.DC_CFG
  { off := 0x058, fields := [⟨10, 0, .ro, 0⟩] }, -- LDP.EXT_COUNT
  { off := 0x060, fields := [⟨1, 1, .rw, 0⟩, ⟨0, 0, .rw, 0⟩] }, -- LDP.AFFINITY
  { off := 0x064, fields := [⟨0, 0, .rw, 0⟩] }, -- LDP.PERSIST
  { off := 0x068, fields := [⟨31, 0, .rw, 0⟩] }, -- LDP.FRAME_FLOOR
  { off := 0x06C, fields := [⟨31, 0, .rw, 0⟩] }, -- LDP.FRAME_CEIL
  { off := 0x070, fields := [⟨63, 32, .ro, 0⟩, ⟨31, 0, .ro, 0⟩], wide := true }, -- LDP.FRAMES_USED
  { off := 0x078, fields := [⟨9, 0, .rw, 0⟩] }, -- LDP.KEY
  { off := 0x100, fields := [⟨31, 0, .rwi, 0⟩] }, -- LDP.FENCE
  { off := 0x108, fields := [⟨63, 48, .ro, 0⟩, ⟨47, 40, .ro, 0⟩, ⟨39, 36, .ro, 0⟩, ⟨34, 32, .ro, 0⟩, ⟨31, 0, .ro, 0⟩], wide := true }, -- LDP.FENCE_DONE
  { off := 0x110, fields := [⟨63, 0, .ro, 0⟩], wide := true }, -- LDP.FENCE_MARK
  { off := 0x118, fields := [⟨63, 4, .rw, 0⟩], wide := true }, -- LDP.FENCE_REC_BASE
  { off := 0x120, fields := [⟨26, 16, .rw, 0⟩, ⟨7, 4, .rw, 6⟩, ⟨1, 1, .rw, 0⟩, ⟨0, 0, .rw, 0⟩] }, -- LDP.FENCE_REC_CFG
  { off := 0x140, fields := [⟨63, 16, .rw, 0⟩], n := 4, stride := 16, wide := true }, -- LDP.STREAMk_BASE
  { off := 0x148, fields := [⟨31, 0, .rw, 0⟩], n := 4, stride := 16 }, -- LDP.STREAMk_LEN
  { off := 0x14C, fields := [⟨31, 31, .rwi, 0⟩, ⟨30, 30, .rw, 0⟩, ⟨27, 16, .rw, 256⟩, ⟨11, 8, .ro, 0⟩], n := 4, stride := 16 }, -- LDP.STREAMk_CTL
  { off := 0x180, fields := [⟨63, 0, .ro, 0⟩], n := 4, stride := 8, wide := true }, -- LDP.STREAMk_POS
  { off := 0x200, fields := [⟨7, 7, .ro, 0⟩, ⟨6, 6, .ro, 0⟩, ⟨5, 5, .ro, 0⟩, ⟨4, 4, .ro, 0⟩, ⟨3, 3, .ro, 0⟩, ⟨2, 2, .ro, 0⟩, ⟨1, 1, .ro, 0⟩, ⟨0, 0, .ro, 0⟩] }, -- LDP.EV_STATE
  { off := 0x204, fields := [⟨10, 10, .w1c, 0⟩, ⟨9, 9, .w1c, 0⟩, ⟨8, 8, .w1c, 0⟩, ⟨7, 0, .w1c, 0⟩] }, -- LDP.EV_LATCH
  { off := 0x208, fields := [⟨26, 16, .rw, 0⟩, ⟨10, 0, .rw, 0⟩] } ] -- LDP.EV_IRQ
/-- The registers of a block's page at offset 0x040 and above. -/
def Block.regs : Block → List Reg
  | .mgmt => regsMgmt | .strp => regsStrp | .jrnl => regsJrnl | .cast => regsCast | .otpc => regsOtpc
  | .boot => regsBoot | .pwrs => regsPwrs | .supv => regsSupv | .thrm => regsThrm | .hku => regsHku
  | .sail => regsSail | .tier => regsTier | .manf => regsManf | .land => regsLand | .scor => regsScor
  | .eccd => regsEccd | .fery => regsFery | .ford => regsFord | .ciph => regsCiph | .keys => regsKeys
  | .hpt => regsHpt | .memc => regsMemc | .dtrn => regsDtrn | .flsh => regsFlsh | .ldp => regsLdp

/-- The bytes a register occupies. -/
def Reg.bytes (r : Reg) : Nat := if r.wide then 8 else 4

/-- Whether offset `o` falls in the register or array, and then the index of the element. -/
def Reg.indexOf (r : Reg) (o : Nat) : Option Nat :=
  if r.off ≤ o ∧ (o - r.off) / r.stride.max r.bytes < r.n ∧ (o - r.off) % r.stride.max r.bytes < r.bytes then
    some ((o - r.off) / r.stride.max r.bytes)
  else none

/-- The register at an offset of a block's page, with the element's index. -/
def findReg (b : Block) (o : Nat) : Option (Reg × Nat) :=
  (regsCommon ++ b.regs).findSome? fun r => (r.indexOf o).map fun k => (r, k)

/-- The offset of the low word of an element. -/
def Reg.base (r : Reg) (k : Nat) : Nat := r.off + k * r.stride.max r.bytes

/-- Mask of a field. -/
def Fld.mask (f : Fld) : Nat := (2 ^ (f.hi - f.lo + 1) - 1) * 2 ^ f.lo

/-- Mask of all fields of a register with an access code that `p` accepts. -/
def Reg.maskOf (r : Reg) (p : Acc → Bool) : Nat :=
  (r.fields.filter fun f => p f.acc).foldl (fun m f => m ||| f.mask) 0

/-- Fields that a transaction stages and the chart holds (R351, R364). -/
def Acc.staged : Acc → Bool
  | .rw | .rws => true
  | _ => false

/-- The field of a value. -/
def bitsOf (v hi lo : Nat) : Nat := v / 2 ^ lo % 2 ^ (hi - lo + 1)

/-- HOSTCFG's division of a port: 0 x16, 1 2×x8, 2 4×x4 (R68). -/
def hostCfgBifur (cfg port : Nat) : Nat :=
  if cfg = 1 then 1 else if cfg = 2 then 2
  else if cfg = 3 then (if port < 2 then 0 else 1)
  else if cfg = 4 then (if port < 2 then 0 else 2)
  else if cfg = 5 then (if port < 2 then 1 else 2)
  else 0

/-- HOSTCFG 0b110 and 0b111 reset `LINK_EN` to 0 (R68). -/
def hostCfgLinkEn (cfg : Nat) : Nat := if cfg < 6 then 1 else 0

/-- The reset binding of context `i` of a half (R70). -/
def bindReset (h : Half) (cfg i : Nat) : Nat :=
  let port := i / 16
  let k := i % 16
  let b := hostCfgBifur cfg port
  let sub := if b = 0 then 0 else if b = 1 then k / 8 else k / 4
  let ldid := if b = 0 then k else if b = 1 then k % 8 else k % 4
  2 ^ 31 + (64 * h.num + i) * 2 ^ 16 + ldid * 2 ^ 8 + sub * 2 ^ 4 + port

/-- The part of a register's Reset value set by straps; `eff` is the straps in use (R365). Every other part
comes from the field table. -/
def strapReset (h : Half) (eff : Nat) (b : Block) (inst off k : Nat) : Nat :=
  let hostcfg := bitsOf eff 7 5
  match b with
  | .ldp =>
    if off = 0x040 then bindReset h hostcfg inst
    else if off = 0x060 then h.num
    else if off = 0x078 then 64 * h.num + inst else 0
  | .hpt => if off = 0x040 then hostCfgLinkEn hostcfg * 2 ^ 6 + hostCfgBifur hostcfg inst else 0
  | .fery => if off = 0x040 then bitsOf eff 11 10 * 2 ^ 8 else 0
  | .eccd => if off = 0x110 then 0x03020100 + 0x04040404 * k else 0
  | _ => 0

/-- The Reset value of an element, 64-bit where the register is wide. G7's EN resets to 0 (R387). -/
def Reg.resetVal (r : Reg) (h : Half) (eff : Nat) (b : Block) (inst k : Nat) : Nat :=
  let t := r.fields.foldl (fun v f => v ||| f.reset * 2 ^ f.lo) 0
  let t := if b = .supv ∧ r.off = 0x040 ∧ k = 7 then t - 2 ^ 31 else t
  t ||| strapReset h eff b inst r.off k

/-- The ranges and sets of values that R407 makes cross-field rules, for the whole value `v` of a register. -/
def rangeOk (b : Block) (off v : Nat) : Bool :=
  match b with
  | .mgmt => if off = 0x048 then bitsOf v 3 0 ≠ 0 else true
  | .ford => if off = 0x040 then bitsOf v 2 1 ≠ 0 else true
  | .sail =>
    if off = 0x040 then 1 ≤ bitsOf v 9 0 ∧ bitsOf v 9 0 ≤ 1000
    else if off = 0x044 then 64 ≤ bitsOf v 28 16 ∧ bitsOf v 28 16 ≤ 4096
    else if off = 0x070 then 1 ≤ bitsOf v 15 0 ∧ bitsOf v 15 0 ≤ 60000
    else if off = 0x074 then 100 ≤ bitsOf v 15 0 else true
  | .hpt => if off = 0x040 then bitsOf v 5 4 ≠ 3 ∧ bitsOf v 1 0 ≠ 3 else true
  | .tier =>
    if off = 0x04C then 10 ≤ bitsOf v 15 0 ∧ bitsOf v 15 0 ≤ 60000
    else if off = 0x068 then 1024 ≤ v ∧ v ≤ 1048576 else true
  | .land => if off = 0x04C then 4 ≤ bitsOf v 15 0 else true
  | .scor =>
    if off = 0x040 then 1 ≤ bitsOf v 7 0 ∧ bitsOf v 7 0 ≤ 168
    else if off = 0x048 then 100 ≤ bitsOf v 13 0 ∧ bitsOf v 13 0 ≤ 10000
    else if off = 0x04C then 10 ≤ bitsOf v 13 0 ∧ bitsOf v 13 0 ≤ 10080 else true
  | .eccd => if off = 0x120 then bitsOf v 27 24 ≤ 4 ∧ bitsOf v 15 8 ≤ 136 else true
  | .memc =>
    if off = 0x040 then 10 ≤ bitsOf v 13 8 ∧ bitsOf v 13 8 ≤ 60
    else if off = 0x060 then
      10 ≤ bitsOf v 31 16 ∧ bitsOf v 31 16 ≤ 10000 ∧ 4 ≤ bitsOf v 7 0 ∧ bitsOf v 7 0 ≤ 64
    else true
  | .dtrn => if off = 0x048 then bitsOf v 31 30 ≠ 3 ∧ bitsOf v 18 16 ≤ 4 else true
  | .fery =>
    if off = 0x040 then 20 ≤ bitsOf v 31 16 ∧ bitsOf v 31 16 ≤ 5000
    else if off = 0x044 then bitsOf v 26 16 ≤ 1024 ∧ bitsOf v 2 0 ≤ 4
    else if off = 0x04C then 1 ≤ bitsOf v 4 0 ∧ bitsOf v 4 0 ≤ 16 else true
  | .flsh =>
    if off = 0x040 then [800, 1200, 1600, 2400, 3200, 3600].contains (bitsOf v 11 0)
    else if off = 0x048 then
      1 ≤ bitsOf v 19 16 ∧ 4 ≤ bitsOf v 7 0 ∧ bitsOf v 7 0 ≤ 20 ∧ bitsOf v 15 8 < bitsOf v 7 0
    else if off = 0x04C then
      10 ≤ bitsOf v 31 16 ∧ bitsOf v 31 16 ≤ 60000 ∧ 2 ≤ bitsOf v 15 8 ∧ bitsOf v 15 8 ≤ 16
    else if off = 0x050 then bitsOf v 15 0 ≤ 4096 else true
  | .keys => if off = 0x068 then 1 ≤ bitsOf v 7 0 ∧ bitsOf v 7 0 ≤ 64 else true
  | .ciph => if off = 0x040 then bitsOf v 3 0 ≠ 0 else true
  | .pwrs => if off = 0x040 then 100 ≤ bitsOf v 31 16 ∧ bitsOf v 31 16 ≤ 50000 else true
  | .supv =>
    if off = 0x040 then 1 ≤ bitsOf v 15 8 else if off = 0x060 then 1 ≤ bitsOf v 15 8 else true
  | .thrm =>
    if off = 0x040 then
      80 ≤ bitsOf v 23 16 ∧ bitsOf v 23 16 ≤ 100 ∧ 85 ≤ bitsOf v 15 8 ∧ bitsOf v 15 8 ≤ 105
        ∧ 1 ≤ bitsOf v 7 4 ∧ bitsOf v 7 4 ≤ 5 ∧ 1 ≤ bitsOf v 3 0 ∧ bitsOf v 3 0 ≤ 10
    else true
  | .ldp =>
    if off = 0x054 then bitsOf v 5 4 ≤ 2 ∧ bitsOf v 3 0 ≤ 8
    else if off = 0x120 then 6 ≤ bitsOf v 7 4 ∧ bitsOf v 7 4 ≤ 12
    else if off = 0x148 then 1 ≤ v
    else if off = 0x14C then 16 ≤ bitsOf v 27 16 else true
  | _ => true

/-- `PAGE_CAPS.STAGEABLE`: a `rw` or `rws` field at offset 0x040 or above (R348). -/
def Block.stageable (b : Block) : Bool := b.regs.any fun r => r.maskOf Acc.staged ≠ 0

/-- `PAGE_CAPS.DEVWIDE` (R348). -/
def Block.hasDevWide (b : Block) : Bool := b.regs.any fun r => r.devWide

end Sys2Proof.Machine
end

