-- ==== Sys2Proof/Machine/Ops.lean ====
section
/-! DEFINITION. The named operations every family shares: sparse maps, the halves of the device, register
storage, events (R349), the journal (R354 to R356), islands and dark pages (R353), and the Ford's send and
receive (R22, R23).
Log entries of notes/assumptions that bear on this file: DESIGN CHOICE 4, DESIGN CHOICE 7, DEDUCED 15, DEDUCED 38. -/

namespace Sys2Proof.Machine

/-! ### Sparse maps: strictly rising keys -/

/-- The value at a key. -/
def smGet {β : Type} (m : SMap β) (k : Nat) : Option β := (m.find? fun e => e.1 == k).map (·.2)

/-- The value at a key, or the value an unlisted key stands for. -/
def smGetD {β : Type} (m : SMap β) (k : Nat) (d : β) : β := (smGet m k).getD d

/-- Remove a key. -/
def smDel {β : Type} (m : SMap β) (k : Nat) : SMap β := m.filter fun e => e.1 != k

/-- Put a value at a key, keeping the keys strictly rising. -/
def smSet {β : Type} : SMap β → Nat → β → SMap β
  | [], k, v => [(k, v)]
  | e :: m, k, v =>
    if k < e.1 then (k, v) :: e :: m
    else if k = e.1 then (k, v) :: m
    else e :: smSet m k v

/-- Put a value at a key where `d` is what an unlisted key stands for, so that equal maps are equal lists. -/
def smPut {β : Type} [DecidableEq β] (m : SMap β) (k : Nat) (d v : β) : SMap β :=
  if v = d then smDel m k else smSet m k v

/-- Strictly rising keys. -/
def smWf {β : Type} : SMap β → Bool
  | [] => true
  | e :: m => (m.all fun f => e.1 < f.1) && smWf m

/-! ### Lists -/

/-- Replace the element at an index. -/
def lset {α : Type} (l : List α) (i : Nat) (a : α) : List α := l.set i a

/-- Change the element at an index. -/
def lmod {α : Type} (l : List α) (i : Nat) (f : α → α) : List α := l.modify i f

/-- The sum of a list of numbers. -/
def lsum (l : List Nat) : Nat := l.foldl (· + ·) 0

/-- Numbers as bytes, little-endian. -/
def leBytes (n v : Nat) : List Byte := (List.range n).map fun k => BitVec.ofNat 8 (v / 256 ^ k)

/-- Bytes as a number, little-endian. -/
def ofLe (l : List Byte) : Nat := l.foldr (fun b v => b.toNat + 256 * v) 0

/-- Bytes as a number, big-endian. -/
def ofBe (l : List Byte) : Nat := l.foldl (fun v b => v * 256 + b.toNat) 0

/-- Numbers as bytes, big-endian. -/
def beBytes (n v : Nat) : List Byte := (leBytes n v).reverse

/-! ### The two halves -/

/-- A half of the device. -/
def Dev.half (d : Dev) : Half → HalfState
  | .west => d.west
  | .east => d.east

/-- Replace a half. -/
def Dev.setHalf (d : Dev) (h : Half) (x : HalfState) : Dev :=
  match h with
  | .west => { d with west := x }
  | .east => { d with east := x }

/-- Change a half. -/
def Dev.upd (d : Dev) (h : Half) (f : HalfState → HalfState) : Dev := d.setHalf h (f (d.half h))

/-- The number 1 or 0 of a truth value. -/
def bnum (b : Bool) : Nat := if b then 1 else 0

/-- The FSC-9418-C, whose East is fused off; its Ford reads ABSENT (R4, R33). -/
def Dev.single (d : Dev) : Bool := d.west.ford.state == .absent

/-- The Ford is UP_FULL or UP_HALF as this half sees it (R25). -/
def Dev.fordUp (d : Dev) (h : Half) : Bool :=
  (d.half h).ford.state == .upFull || (d.half h).ford.state == .upHalf

/-- The halves that exist. -/
def Dev.halves (d : Dev) : List Half := if d.single then [.west] else [.west, .east]

/-- Apply a change to each half that exists, West first. -/
def Dev.eachHalf (d : Dev) (f : Dev → Half → Dev) : Dev := d.halves.foldl f d

/-- Send something to the outside. -/
def Dev.emit (d : Dev) (o : Output) : Dev := { d with out := o :: d.out }

/-- Draw free bits (DESIGN CHOICE, notes/assumptions/4.md). -/
def Dev.free (d : Dev) (w : Nat) : BitVec w × Dev :=
  (Config.freeBits w d.freeCtr, { d with freeCtr := d.freeCtr + 1 })

/-- Release the SPDM state of requesters (R296): 0 to 7 the management function by global port, 8 + n LD n, 256 and above
the MCTP endpoints. -/
def Dev.spdmDrop (d : Dev) (p : Nat → Bool) : Dev := { d with spdm := d.spdm.filter fun x => !(p x.requester) }

/-- What a meaning answers. -/
abbrev Out := Host.Outcome State Fault Refusal

/-- A meaning that changes the device and neither the queue nor an OTP row. -/
def onDev (f : Dev → Dev) (s : State) : Out := .next { s with dev := f s.dev }

/-! ### Register storage -/

/-- Key of a register word. -/
def regKey (page off : Nat) : Nat := page * 1024 + off / 4

/-- The Reset value of a register word of a half. -/
def resetWord (h : Half) (eff page off : Nat) : Word :=
  match blockOf page with
  | none => 0
  | some (b, inst) =>
    match findReg b off with
    | none => 0
    | some (r, k) =>
      let v := r.resetVal h eff b inst k
      BitVec.ofNat 32 (if r.base k = off / 4 * 4 then v else v / 2 ^ 32)

/-- A stored register word. -/
def Dev.reg (d : Dev) (h : Half) (page off : Nat) : Word :=
  (smGet (d.half h).ctl.regs (regKey page off)).getD (resetWord h (d.half h).strap.eff.toNat page off)

/-- A stored 64-bit register. -/
def Dev.reg64 (d : Dev) (h : Half) (page off : Nat) : Nat :=
  (d.reg h page off).toNat + 2 ^ 32 * (d.reg h page (off + 4)).toNat

/-- Store a register word. -/
def Dev.setReg (d : Dev) (h : Half) (page off v : Nat) : Dev :=
  d.upd h fun x => { x with ctl := { x.ctl with
    regs := smPut x.ctl.regs (regKey page off) (resetWord h x.strap.eff.toNat page off) (BitVec.ofNat 32 v) } }

/-- Store a 64-bit register. -/
def Dev.setReg64 (d : Dev) (h : Half) (page off v : Nat) : Dev :=
  (d.setReg h page off (v % 2 ^ 32)).setReg h page (off + 4) (v / 2 ^ 32)

/-- A field of a stored register word. -/
def Dev.fld (d : Dev) (h : Half) (page off hi lo : Nat) : Nat := bitsOf (d.reg h page off).toNat hi lo

/-- A value with a field replaced. -/
def putBits (v hi lo x : Nat) : Nat :=
  v - bitsOf v hi lo * 2 ^ lo + x % 2 ^ (hi - lo + 1) * 2 ^ lo

/-- Store a field of a register word. -/
def Dev.setFld (d : Dev) (h : Half) (page off hi lo x : Nat) : Dev :=
  d.setReg h page off (putBits (d.reg h page off).toNat hi lo x)

/-- Count up a 32-bit counter that saturates, by `n`. -/
def Dev.sat (d : Dev) (h : Half) (page off : Nat) (n : Nat := 1) : Dev :=
  d.setReg h page off (min ((d.reg h page off).toNat + n) 0xFFFFFFFF)

/-- Count up a 32-bit counter that wraps. -/
def Dev.wrap32 (d : Dev) (h : Half) (page off : Nat) (n : Nat := 1) : Dev :=
  d.setReg h page off ((d.reg h page off).toNat + n)

/-- Count up a 64-bit counter that wraps. -/
def Dev.wrap64 (d : Dev) (h : Half) (page off : Nat) (n : Nat := 1) : Dev :=
  d.setReg64 h page off ((d.reg64 h page off + n) % 2 ^ 64)

/-- The words of `PWRS.RTC_ALARM`, which the chart does not hold (DEDUCED, notes/assumptions/25.md). -/
def alarmKey (key : Nat) : Bool := key / 2 == regKey 0x008 0x058 / 2

/-- Put committed words into a half's chart in NAND (R364). -/
def Dev.chartPut (d : Dev) (h : Half) (ws : List (Nat × Word)) : Dev :=
  d.upd h fun x => { x with ctl := { x.ctl with
    chart := (ws.filter fun e => !(alarmKey e.1)).foldl (fun c e => smSet c e.1 e.2) x.ctl.chart } }

/-! ### Islands and dark pages (R353) -/

/-- The island is marked failed, held in reset, or switched off by Last Ferry or MOORED. -/
def Dev.islandDark (d : Dev) (h : Half) (i : Nat) : Bool :=
  let p := (d.half h).pwr
  p.failed.getLsbD i || p.inReset.getLsbD i
    || (p.gated.getLsbD i && (p.state == .lastFerry || p.state == .moored || p.state == .off))

/-- The island is gated as in TRIM (R301). -/
def Dev.islandGated (d : Dev) (h : Half) (i : Nat) : Bool :=
  !(d.islandDark h i) && (d.half h).pwr.gated.getLsbD i

/-- The complex of a half is lost or held in reset (R336, R337). -/
def Dev.mgmtLost (d : Dev) (h : Half) : Bool := (d.half h).mgmt.lost || (d.half h).mgmt.held

/-- The half's pages are served by the other half's complex (R337). -/
def Dev.served (d : Dev) (h : Half) : Bool := d.mgmtLost h && (d.half h.other).mgmt.takeover

/-- Whether a page of half `h` is dark to a request that entered half `via` (R353). -/
def Dev.pageDark (d : Dev) (via h : Half) (page : Nat) : Bool :=
  match blockOf page with
  | none => false
  | some (b, inst) =>
    (via != h && !d.fordUp via) || (d.single && h == .east)
      || (if d.single && b == .ford then d.islandDark h 19
          else if b.island inst == 19 && d.served h then false
          else if b.island inst == 19 && b != .boot && !(d.half h).boot.running then true
          else d.islandDark h (b.island inst))

/-! ### Events (R349) -/

/-- Every page event of the device, block by block in the order of its `EV_RAW` bits. -/
inductive Ev where
  | islandFault | mgmtPeerLost | mgmtTakeover | mgmtRestored | mgmtHeld
  | strapMismatch
  | journalFull | spillFail | darkAccess | checkFailed | entryLost
  | castCommitted | castAborted | castTimeout
  | otpMismatch | otpProgrammed | otpcCmdDone
  | bootSlotFail | recoveryBoot | measChanged | certMismatch | bootHalt
  | lfDone | warmReturn | mooredWake | sealFail | saveLost | rearmDone | pwrfailGlitch | resetIgnored | lfIncomplete
  | supplyFault | inputLoss | fallSlow | logWritten | logFail
  | tempWarn | throttleUp | throttleDown | criticalTemp | diodeFail
  | roundLate | voltDrift | spdMissed
  | soloEnter | soloExit | backlogHold | disarmed | skewLate | fenceFailed | gpfLate
  | dirtyHigh | dirtyStall | freeLow | frameStarved | tierCmdDone | poolShrunk | streamClosed
  | manfUndersized | tileLost | tileDark
  | wayDisabled | drainDone | noWays | landCmdDone | landDirLost
  | hardFault | ueFound | ueRepaired | linePoisoned | tallyRefetch | sramRowFaulty | scorFull | scrubLate | scrubPass
  | selftestFail | eccdDone
  | ferryUp | ferryDown | sessionUp | sessionFail | twinLost | sailingRejected | rekeyDone | resyncStart | resyncDone | fenced | promoted | genConflict | pairMismatch | peerMgmtLost
  | fordRepair | fordRetrain | fordDegraded | fordLost
  | coreFailed | cmacMismatch
  | keyLoaded | slotErased | sweepDone | slotRetired | keysCmdDone | walkDone | keyAbsent
  | linkUp | linkDown | linkDegraded | unmappedAccess | portReset | sanitizeTwinPending
  | dimmUnsupported | trainDone | trainFail | parityReplay | replayRetrain | driftRetrain | subchFailed | refreshHot | freqDone
  | dtrnDone
  | eraseOverdue | grownBad | dieFailed | channelFailed | poolLow | opExhausted | unformatted | formatDone | flashTimeout | diagDone
  deriving DecidableEq, Repr

/-- The `EV_RAW` bit of an event on its block's page. -/
def Ev.bit : Ev → Nat
  | .islandFault | .strapMismatch | .journalFull | .castCommitted | .otpMismatch | .bootSlotFail | .lfDone |
    .supplyFault | .tempWarn | .roundLate | .soloEnter | .dirtyHigh | .manfUndersized | .wayDisabled |
    .hardFault | .selftestFail | .ferryUp | .fordRepair | .coreFailed | .keyLoaded | .linkUp |
    .dimmUnsupported | .dtrnDone | .eraseOverdue => 0
  | .mgmtPeerLost | .spillFail | .castAborted | .otpProgrammed | .recoveryBoot | .warmReturn | .inputLoss |
    .throttleUp | .voltDrift | .soloExit | .dirtyStall | .tileLost | .drainDone | .ueFound | .eccdDone |
    .ferryDown | .fordRetrain | .cmacMismatch | .slotErased | .linkDown | .trainDone | .grownBad => 1
  | .mgmtTakeover | .darkAccess | .castTimeout | .otpcCmdDone | .measChanged | .mooredWake | .fallSlow |
    .throttleDown | .spdMissed | .backlogHold | .freeLow | .tileDark | .noWays | .ueRepaired | .sessionUp |
    .fordDegraded | .sweepDone | .linkDegraded | .trainFail | .dieFailed => 2
  | .mgmtRestored | .checkFailed | .certMismatch | .sealFail | .logWritten | .criticalTemp | .disarmed |
    .frameStarved | .landCmdDone | .linePoisoned | .sessionFail | .fordLost | .slotRetired | .unmappedAccess |
    .parityReplay | .channelFailed => 3
  | .mgmtHeld | .entryLost | .bootHalt | .saveLost | .logFail | .diodeFail | .skewLate | .tierCmdDone |
    .landDirLost | .tallyRefetch | .twinLost | .keysCmdDone | .portReset | .replayRetrain | .poolLow => 4
  | .rearmDone | .fenceFailed | .poolShrunk | .sramRowFaulty | .sailingRejected | .walkDone |
    .sanitizeTwinPending | .driftRetrain | .opExhausted => 5
  | .pwrfailGlitch | .gpfLate | .streamClosed | .scorFull | .rekeyDone | .keyAbsent | .subchFailed |
    .unformatted => 6
  | .resetIgnored | .scrubLate | .resyncStart | .refreshHot | .formatDone => 7
  | .lfIncomplete | .scrubPass | .resyncDone | .freqDone | .flashTimeout => 8
  | .fenced | .diagDone => 9
  | .promoted => 10
  | .genConflict => 11
  | .pairMismatch => 12
  | .peerMgmtLost => 13

/-- `EV_MASK`, in its register (R348). -/
def Dev.evMask (d : Dev) (h : Half) (page : Nat) : DWord := BitVec.ofNat 64 (d.reg64 h page 0x028)

/-- `EV_RAW` of a page. -/
def Dev.evRaw (d : Dev) (h : Half) (page : Nat) : DWord := smGetD (d.half h).ctl.evRaw page 0

/-- Replace `EV_RAW` of a page. -/
def Dev.setEvRaw (d : Dev) (h : Half) (page : Nat) (v : DWord) : Dev :=
  d.upd h fun x => { x with ctl := { x.ctl with evRaw := smPut x.ctl.evRaw page 0 v } }

/-- `EV_PEND` of a page: raw and mask. -/
def Dev.evPend (d : Dev) (h : Half) (page : Nat) : DWord := d.evRaw h page &&& d.evMask h page

/-- Write an event record into the half's ring of 4,096 (R349). -/
def Dev.evRecord (d : Dev) (h : Half) (page bit a0 a1 : Nat) : Dev :=
  d.upd h fun x => { x with ctl := { x.ctl with
    evSeq := x.ctl.evSeq + 1
    evRing := (⟨d.time % 2 ^ 64, a1 % 2 ^ 64, a0 % 2 ^ 64, (x.ctl.evSeq + 1) % 2 ^ 32, page, h, bit⟩
      :: x.ctl.evRing).take 4096 } }

/-- When `EV_PEND` turns from zero to non-zero, send the MSI-X message of VEC, and the in-band interrupt when
IBI = 1 (R349 step 3). `was` is `EV_PEND` before. -/
def Dev.evDeliver (d : Dev) (h : Half) (page : Nat) (was : DWord) : Dev :=
  if was = 0 ∧ d.evPend h page ≠ 0 then
    let sum := (d.reg h page 0x010).toNat
    let d := d.emit (.msixMgmt (bitsOf sum 5 0))
    if bitsOf sum 9 9 = 1 then d.emit (.ibi h page) else d
  else d

/-- Raise the event of an `EV_RAW` bit on a page with the two values it carries (R349). -/
def Dev.raiseBit (d : Dev) (h : Half) (page bit a0 a1 : Nat) : Dev :=
  let was := d.evPend h page
  let d := d.setEvRaw h page (d.evRaw h page ||| BitVec.twoPow 64 bit)
  (d.evRecord h page bit a0 a1).evDeliver h page was

/-- Raise an event on a page with the two values it carries (R349). -/
def Dev.raise (d : Dev) (h : Half) (page : Nat) (e : Ev) (a0 : Nat := 0) (a1 : Nat := 0) : Dev :=
  d.raiseBit h page e.bit a0 a1

/-! ### The journal (R354 to R356) -/

/-- Origin class and number as a journal entry holds them (R355). -/
def Dev.orgCode (d : Dev) : Origin → Nat × Nat
  | .hw i => (0, i)
  | .host g => (1, g)
  | .ld n => (2, n)
  | .bmc .west => (3, d.i3cWest.toNat)
  | .bmc .east => (3, d.i3cEast.toNat)
  | .fw h a => (4, 16 * h.num + a)

/-- The half whose ring journals a change of half `h`'s pages (R355 HALF, R337). -/
def Dev.ringHalf (d : Dev) (h : Half) : Half := if d.served h then h.other else h

/-- The spill area is full: 536,870,912 entries in tiles of 2,048 (R356). -/
def spillFull (c : CtlHalf) : Bool := 262144 ≤ c.spill.length

/-- Spill is possible (R356). -/
def Dev.spillOk (d : Dev) (h : Half) : Bool :=
  let x := d.half h
  x.flash.formatted && x.pwr.started && x.pwr.state != .lastFerry && x.pwr.state != .moored
    && x.pwr.state != .off && (!(d.mgmtLost h) || d.served h)
    && !(d.fld h pgJRNL 0x040 0 0 == 1 && spillFull x.ctl) && x.ctl.spillFails < 2

/-- Spill the oldest 2,048 unspilled entries into a tile of the spill area, over its oldest tile when it is
full (R356). -/
def spillOnce (c : CtlHalf) : CtlHalf :=
  let part := (c.journal.drop (c.unspilled - 2048)).take 2048
  { c with spill := (part :: c.spill).take 262144, unspilled := c.unspilled - 2048 }

/-- The ring is full and spill is impossible (R356). -/
def Dev.jFull (d : Dev) (h : Half) : Bool := 65536 ≤ (d.half h).ctl.unspilled && !(d.spillOk h)

/-- Append an entry to a half's ring. While no firmware runs, the always-on island keeps the last 64 entries of the BMC's
writes (R356), with the time of each. A full ring spills first where it can; otherwise the entry goes over the
oldest unspilled one, which `LOST` counts (R356). -/
def Dev.jAppend (d : Dev) (rh : Half) (e : JEntry) : Dev :=
  if !(d.half rh).boot.running then
    if e.cls = 3 then d.upd rh fun x => { x with ctl := { x.ctl with
      moorLog := ({ e with time := d.time % 2 ^ 64 } :: x.ctl.moorLog).take 64 } }
    else d
  else
  let full := 65536 ≤ (d.half rh).ctl.unspilled
  let ok := d.spillOk rh
  let lose := full && !ok
  let d := d.upd rh fun x =>
    let c := if full && ok then spillOnce x.ctl else x.ctl
    { x with ctl := { c with
      journal := ({ e with time := if e.time = 0 then d.time % 2 ^ 64 else e.time, jseq := c.jseq + 1 } :: c.journal).take 65536
      jseq := c.jseq + 1
      unspilled := min (c.unspilled + 1) 65536 } }
  if lose then (d.sat rh pgJRNL 0x064).raise rh pgJRNL .entryLost else d

/-- Results of a journal entry (R355). -/
def rAPPLIED : Nat := 0
def rCOMMITTED : Nat := 1
def rREFUSED : Nat := 2
def rCOMMAND : Nat := 3
def rABORTED : Nat := 4

/-- Journal one register word of half `h` (R354, R355). A change sets the page's `PAGE_JSEQ`. -/
def Dev.journal (d : Dev) (org : Origin) (h : Half) (page off result : Nat) (old new : Word) (txn : Nat := 0) : Dev :=
  let rh := d.ringHalf h
  let c := d.orgCode org
  let d := d.jAppend rh {
    time := 0, new := new, old := old, jseq := 0, txn := txn, result := result,
    cls := c.1, org := c.2, word := off / 4, page := page, half := h }
  if result = rAPPLIED ∨ result = rCOMMITTED then
    d.upd h fun x => { x with ctl := { x.ctl with
      pageJseq := smPut x.ctl.pageJseq page 0 (BitVec.ofNat 32 (d.half rh).ctl.jseq) } }
  else d

/-- A hardware change of a writable register word: applied and journaled with origin class hardware, by the
island's number (R354). No entry where nothing changes. -/
def Dev.hwChange (d : Dev) (island : Nat) (h : Half) (page off v : Nat) : Dev :=
  let old := d.reg h page off
  if old = BitVec.ofNat 32 v then d
  else (d.setReg h page off v).journal (.hw island) h page off rAPPLIED old (BitVec.ofNat 32 v)

/-- A hardware change that a record in NAND makes durable, so that a restart finds it (R213, R341, R364). -/
def Dev.hwKept (d : Dev) (island : Nat) (h : Half) (page off v : Nat) : Dev :=
  (d.hwChange island h page off v).chartPut h [(regKey page off, BitVec.ofNat 32 v)]

/-- Refuse a write: journal it REFUSED (R351, R354). -/
def Dev.refuse (d : Dev) (org : Origin) (h : Half) (page off : Nat) (v : Word) : Dev :=
  d.journal org h page off rREFUSED 0 v

/-- `CHECK_FAILED` carries HALF × 4,096 + page and the offset (R367). -/
def Dev.checkFailed (d : Dev) (h : Half) (page off : Nat) : Dev :=
  d.raise h pgJRNL .checkFailed (h.num * 4096 + page) off

/-! ### The Ford: sending and receiving (R22 to R24) -/

/-- The class of a message (R24). -/
def FordMsg.cls : FordMsg → Nat
  | .beaconOpen _ | .beaconEcho _ | .sealReady _ | .castPrepare _ _ | .castVote _ _ | .castApply _ _ => 0
  | .memRd _ _ _ | .memWr _ _ _ _ | .memWrp _ _ _ _ _ => 1
  | .memRdData _ _ _ _ _ | .memWrAck _ => 2
  | .regRd _ _ | .regWr _ _ _ | .regResp _ _ _ _ | .heartbeat _ => 3
  | .sibVerified _ => 0

/-- The chunks of a message (R24). -/
def FordMsg.chunks : FordMsg → Nat
  | .memWr _ _ _ _ | .memRdData _ _ _ _ _ => 5
  | .memWrp _ _ _ _ _ => 6
  | _ => 1

/-! ### The kinds of a message, which its receiver asks for -/

/-- The message is `castPrepare`. -/
def FordMsg.isCastPrepare : FordMsg → Bool
  | .castPrepare _ _ => true
  | _ => false

/-- The message is `castVote`. -/
def FordMsg.isCastVote : FordMsg → Bool
  | .castVote _ _ => true
  | _ => false

/-- The message is `castApply`. -/
def FordMsg.isCastApply : FordMsg → Bool
  | .castApply _ _ => true
  | _ => false

/-- The message is `beaconOpen`. -/
def FordMsg.isBeaconOpen : FordMsg → Bool
  | .beaconOpen _ => true
  | _ => false

/-- The message is `beaconEcho`. -/
def FordMsg.isBeaconEcho : FordMsg → Bool
  | .beaconEcho _ => true
  | _ => false

/-- The message is `sealReady`. -/
def FordMsg.isSealReady : FordMsg → Bool
  | .sealReady _ => true
  | _ => false

/-- The message is `memRd`. -/
def FordMsg.isMemRd : FordMsg → Bool
  | .memRd _ _ _ => true
  | _ => false

/-- The message is `memWr`. -/
def FordMsg.isMemWr : FordMsg → Bool
  | .memWr _ _ _ _ => true
  | _ => false

/-- The message is `memWrp`. -/
def FordMsg.isMemWrp : FordMsg → Bool
  | .memWrp _ _ _ _ _ => true
  | _ => false

/-- The message is `memRdData`. -/
def FordMsg.isMemRdData : FordMsg → Bool
  | .memRdData _ _ _ _ _ => true
  | _ => false

/-- The message is `memWrAck`. -/
def FordMsg.isMemWrAck : FordMsg → Bool
  | .memWrAck _ => true
  | _ => false

/-- The message is `sibVerified`. -/
def FordMsg.isSibVerified : FordMsg → Bool
  | .sibVerified _ => true
  | _ => false

/-- The message is `regRd`. -/
def FordMsg.isRegRd : FordMsg → Bool
  | .regRd _ _ => true
  | _ => false

/-- The message is `regWr`. -/
def FordMsg.isRegWr : FordMsg → Bool
  | .regWr _ _ _ => true
  | _ => false

/-- The message is `regResp`. -/
def FordMsg.isRegResp : FordMsg → Bool
  | .regResp _ _ _ _ => true
  | _ => false

/-- The message is `heartbeat`. -/
def FordMsg.isHeartbeat : FordMsg → Bool
  | .heartbeat _ => true
  | _ => false

/-! ### Sending and receiving -/

/-- Send one message as a flit: take its credits and keep its FSEQ in the replay buffer. -/
def fordPut (f : FordHalf) (m : FordMsg) : FordHalf :=
  { f with txq := f.txq ++ [m]
           credits := lmod f.credits m.cls (· - m.chunks)
           replayBuf := f.replayBuf ++ [f.nextFseq]
           nextFseq := f.nextFseq + 1 }

/-- A message can leave now: the Ford carries traffic, credits for all its chunks are held (R23) and the replay
buffer of 256 flits has room (R22). -/
def fordCan (f : FordHalf) (m : FordMsg) : Bool :=
  (f.state == .upFull || f.state == .upHalf) && m.chunks ≤ f.credits.getD m.cls 0 && f.replayBuf.length < 256

/-- Send waiting messages of one class while they can leave, oldest first. -/
def fordFlushCls (cls : Nat) : List FordMsg → FordHalf → List FordMsg × FordHalf
  | [], f => ([], f)
  | m :: ms, f =>
    if m.cls = cls && fordCan f m then fordFlushCls cls ms (fordPut f m)
    else if m.cls = cls then (m :: ms, f)
    else
      let r := fordFlushCls cls ms f
      (m :: r.1, r.2)

/-- Send what waits, in the order C0, C2, C1, C3 (R23). -/
def fordFlush (f : FordHalf) : FordHalf :=
  [0, 2, 1, 3].foldl (fun f c =>
    let r := fordFlushCls c f.waitq f
    { r.2 with waitq := r.1 }) f

/-- Hand a message to the Ford. A Ford that is absent or lost carries nothing. -/
def Dev.fordSend (d : Dev) (h : Half) (m : FordMsg) : Dev :=
  let f := (d.half h).ford
  if f.state = .absent ∨ f.state = .lost then d
  else if fordCan f m && !(f.waitq.any fun w => w.cls == m.cls) then d.upd h fun x => { x with ford := fordPut x.ford m }
  else d.upd h fun x => { x with ford := { x.ford with waitq := x.ford.waitq ++ [m] } }

/-- Half `h` takes in the acknowledgements and credits that a good flit of the other half carries (R21). -/
def Dev.fordAck (d : Dev) (h : Half) : Dev :=
  let o := (d.half h.other).ford
  let d := d.upd h fun x =>
    let n := (o.lastGood + 1 - x.ford.replayBuf.headD (o.lastGood + 1)).toNat
    let freed := if n ≤ x.ford.replayBuf.length then n else 0
    let f := { x.ford with
      replayBuf := x.ford.replayBuf.drop freed
      resent := if freed = 0 then x.ford.resent else 0
      credits := x.ford.credits.zipWith (· + ·) o.owed }
    { x with ford := fordFlush f }
  d.upd h.other fun x => { x with ford := { x.ford with owed := [0, 0, 0, 0] } }

/-- Half `h` receives the oldest message of a class, if `p` accepts it: within a class messages arrive in the
order they were sent (R23). Nothing arrives while the Ford does not carry traffic or the receiver discards
flits up to a replay (R22). -/
def Dev.fordTake (d : Dev) (h : Half) (cls : Nat) (p : FordMsg → Bool) : Option (FordMsg × Dev) :=
  let o := (d.half h.other).ford
  if !(d.fordUp h) || (d.half h).ford.discarding then none
  else
    match o.txq.find? fun m => m.cls == cls with
    | none => none
    | some m =>
      if p m then
        let d := d.upd h.other fun x => { x with ford := { x.ford with txq := x.ford.txq.erase m } }
        let d := d.upd h fun x => { x with ford := { x.ford with
          lastGood := x.ford.lastGood + 1
          owed := lmod x.ford.owed m.cls (· + m.chunks) } }
        some (m, d.fordAck h)
      else none

end Sys2Proof.Machine
end

