-- ==== Sys2Proof/Machine/Operands.lean ====
section
/-! DEFINITION. The operands of register commands: who writes and by which half a request enters (R345), the address
(R344), and 64-bit values as pairs of words (R350). -/

namespace Sys2Proof

/-- The half whose island an origin's request enters (R345). Hardware and LD hosts enter at the page's own half. -/
def Origin.via (o : Origin) (h : Half) : Half :=
  match o with
  | .host g => if g < 4 then .west else .east
  | .bmc die => die
  | .fw x _ => x
  | .hw _ | .ld _ => h

/-- Hosts and the BMC, the origins that `WR_LOCK` and a lost complex stop (R337, R348). -/
def Origin.outside : Origin → Bool
  | .host _ | .bmc _ => true
  | _ => false

/-- The BMC, which the always-on islands answer for `PWRS` and `SUPV` (R337, R346). -/
def Origin.isBmc : Origin → Bool
  | .bmc _ => true
  | _ => false

end Sys2Proof

namespace Sys2Proof.Machine

/-- A register's address (R344). -/
def regAddr (h : Half) (page off : Nat) : Nat := h.num * 0x1000000 + page * 0x1000 + off

/-- The high and low words of a 64-bit value that a command register takes as a pair (R350). -/
def loWord (v : Nat) : Word := BitVec.ofNat 32 v
def hiWord (v : Nat) : Word := BitVec.ofNat 32 (v / 2 ^ 32)

end Sys2Proof.Machine
end

