-- ==== Sys2Proof/Machine/Flags.lean ====
section
/-! DEFINITION. The rules every register write meets before it acts: the refusals of
R351, R353 and R356, and the handling of a command register (`rwi`), shared by every command that is one. -/

namespace Sys2Proof.Machine

/-- The slot index of an origin's OPEN transaction (R357). -/
def Dev.openTxn (d : Dev) (org : Origin) : Option Nat :=
  d.cast.slots.findIdx? fun s => match s with
    | some t => t.org == org && !t.committing
    | none => false

/-- What a write meets at the half that judges it. -/
inductive Gate where
  /-- It is handled by its access code. -/
  | pass
  /-- Discarded without an entry (R76, R337). -/
  | drop
  /-- Refused and journaled REFUSED. -/
  | refuse
  /-- The page is dark (R353). -/
  | dark
  /-- The journal is full (R356). -/
  | full
  deriving DecidableEq, Repr

/-- An origin that reaches the register at all: an LD's host has only the fence and event views of its own page (R76). -/
def Dev.reaches (d : Dev) (org : Origin) (h : Half) (page off : Nat) : Bool :=
  match org with
  | .ld n => decide (0x100 ≤ page) && decide (page < 0x140) && d.fld h page 0x040 22 16 == n
      && (decide (off < 0x040) || (decide (0x100 ≤ off) && decide (off < 0x300)))
  | _ => true

/-- Judge a write to a page of half `h` at half `e` (R76, R337, R351, R353, R356). `PAGE_CTRL` and `EV_CLR` are free
of `WR_LOCK`; an access that is not journaled is free of a full journal. -/
def Dev.gate (d : Dev) (org : Origin) (e h : Half) (page off : Nat) (journaled : Bool) : Gate :=
  if !(d.reaches org h page off) then .drop
  else if org.outside && d.mgmtLost h && !(d.served h) && !(org.isBmc && (page == pgPWRS || page == pgSUPV)) then .drop
  else if (blockOf page).isNone then .refuse
  else if d.pageDark e h page then .dark
  else if org.outside && d.fld h page 0x00C 0 0 == 1 && off != 0x00C && off / 8 != 0x038 / 8 then .refuse
  else if journaled && d.jFull (d.ringHalf h) then .full
  else .pass

/-- Apply a refusal: a dark page raises `DARK_ACCESS` and takes a REFUSED entry (R353), in the ring and the `JRNL`
page of the half that judged it; a full journal counts the refusal (R356). -/
def Dev.applyGate (d : Dev) (g : Gate) (org : Origin) (e h : Half) (page off : Nat) (v : Word) : Dev :=
  match g with
  | .pass | .drop => d
  | .refuse => d.refuse org h page off v
  | .dark =>
    let c := d.orgCode org
    (d.raise e pgJRNL .darkAccess (h.num * 4096 + page)).jAppend e {
      time := 0, new := v, old := 0, jseq := 0, result := rREFUSED, cls := c.1, org := c.2,
      word := off / 4, page := page, half := h }
  | .full => (d.sat e pgJRNL 0x068).raise e pgJRNL .journalFull

/-- Set the islands gated in ON or TRIM; the state is TRIM while there are any (R299 to R301). -/
def Dev.setGates (d : Dev) (h : Half) (g : BitVec 22) : Dev :=
  let p := (d.half h).pwr
  if p.state = .on ∨ p.state = .trim then
    d.upd h fun x => { x with pwr := { x.pwr with gated := g, state := if g = 0 then .on else .trim } }
  else d

/-- Wake an island gated in TRIM (R17, R353). -/
def Dev.wake (d : Dev) (h : Half) (i : Nat) : Dev :=
  if d.islandGated h i then d.setGates h ((d.half h).pwr.gated &&& ~~~(BitVec.twoPow 22 i)) else d

/-- The island of a page. -/
def pageIsland (page : Nat) : Nat := match blockOf page with
  | some (b, n) => b.island n
  | none => 19

/-- Journal a command: one entry, or two consecutive ones for a 64-bit register (R350, R351). -/
def Dev.journalCmd (d : Dev) (org : Origin) (h : Half) (page off v : Nat) (wide : Bool) (result : Nat) : Dev :=
  let d := d.journal org h page off result 0 (loWord v)
  if wide then d.journal org h page (off + 4) result 0 (hiWord v) else d

/-- A command register written at the half that holds the page: refused as R351 to R356 say, else journaled
COMMAND and run after waking a gated island; where `act` refuses, the entry is REFUSED and `no` shows it. -/
def Dev.localCommand (d : Dev) (org : Origin) (e h : Half) (page off v : Nat) (wide journaled : Bool)
    (act : Dev → Option Dev) (no : Dev → Dev := id) : Dev :=
  match d.gate org e h page off journaled with
  | .pass =>
    if (d.openTxn org).isSome then d.journalCmd org h page off v wide rREFUSED
    else
      let d := d.wake h (pageIsland page)
      let d1 := if journaled then d.journalCmd org h page off v wide rCOMMAND else d
      match act d1 with
      | some d2 => d2
      | none => no (if journaled then d.journalCmd org h page off v wide rREFUSED else d)
  | g => d.applyGate g org e h page off (loWord v)

/-- An origin has an access under way: over the Ford, or a read that waits for an implicit commit. -/
def CtlHalf.underWay (c : CtlHalf) (org : Origin) : Bool :=
  c.remote.contains org || c.reads.any fun e => e.1 == org && !e.2.2

/-- An origin's access must wait: an earlier one that entered by the half is under way or waits itself (R347). -/
def Dev.accBusy (d : Dev) (via : Half) (org : Origin) : Bool :=
  let c := (d.half via).ctl
  c.underWay org || c.waiting.any fun a => a.org == org

/-- Let accesses wait. -/
def Dev.accWait (d : Dev) (via : Half) (as : List Access) : Dev :=
  d.upd via fun x => { x with ctl := { x.ctl with waiting := x.ctl.waiting ++ as } }

/-- Send an access over the Ford. -/
def Dev.accSend (d : Dev) (via : Half) (org : Origin) (m : FordMsg) : Dev :=
  (d.fordSend via m).upd via fun x => { x with ctl := { x.ctl with remote := x.ctl.remote ++ [org] } }

/-- A write of a command register by an origin. A request that enters by the other half crosses the Ford as
`REG_WR` while the Ford is up (R345, R346); there the same rules judge it. It waits for the origin's earlier accesses (R347). -/
def Dev.command (d : Dev) (org : Origin) (h : Half) (page off v : Nat) (act : Dev → Option Dev)
    (wide : Bool := false) (journaled : Bool := true) (no : Dev → Dev := id) : Dev :=
  let via := org.via h
  let lo := regAddr h page off
  if d.accBusy via org then
    d.accWait via ({ org := org, addr := lo, val := some (loWord v) } ::
      if wide then [{ org := org, addr := lo + 4, val := some (hiWord v) }] else [])
  else if via != h && d.fordUp via then
    let d := d.accSend via org (.regWr org lo (loWord v))
    if wide then d.accSend via org (.regWr org (lo + 4) (hiWord v)) else d
  else d.localCommand org via h page off v wide journaled act no

end Sys2Proof.Machine
end

