-- ==== Sys2Proof/Machine/Crypto.lean ====
section
/-! DEFINITION. The cited standards: AES-256 (FIPS 197), XTS (IEEE 1619), CMAC (SP 800-38B), the RFC 3394 key
wrap, SHA-512, HMAC and HKDF, P-521 with ECDH and ECDSA verification, and the CRCs of R406 and R132. Bytes are
numbers below 256 here.
Log entries of notes/assumptions that bear on this file: PRESUMED 10. -/

namespace Sys2Proof.Machine

/-! ### AES-256 -/

/-- The S-box, entry k at bits [8k+7:8k]. -/
def aesSbox : Nat :=
  0x16bb54b00f2d99416842e6bf0d89a18cdf2855cee9871e9b948ed9691198f8e19e1dc186b95735610ef6034866b53e708a8bbd4b1f74dde8c6b4a61c2e2578ba08ae7a65eaf4566ca94ed58d6d37c8e779e4959162acd3c25c2406490a3a32e0db0b5ede14b8ee4688902a22dc4f816073195d643d7ea7c41744975fec130ccdd2f3ff1021dab6bcf5389d928f40a351a89f3c507f02f94585334d43fbaaefd0cf584c4a39becb6a5bb1fc20ed00d153842fe329b3d63b52a05a6e1b1a2c830975b227ebe28012079a059618c323c7041531d871f1e5a534ccf73f362693fdb7c072a49cafa2d4adf04759fa7dc982ca76abd7fe2b670130c56f6bf27b777c63

/-- The inverse S-box. -/
def aesInvSbox : Nat :=
  0x7d0c2155631469e126d677ba7e042b17619953833cbbebc8b0f52aae4d3be0a0ef9cc9939f7ae52d0d4ab519a97f51605fec8027591012b131c7078833a8dd1ff45acd78fec0db9a2079d2c64b3e56fc1bbe18aa0e62b76f89c5291d711af1476edf751ce837f9e28535ade72274ac9673e6b4f0cecff297eadc674f4111913a6b8a130103bdafc1020f3fca8f1e2cd00645b3b80558e4f70ad3bc8c00abd890849d8da75746155edab9edfd5048706c92b6655dcc5ca4d41698688664f6f87225d18b6d49a25b76b224d92866a12e084ec3fa420b954cee3d23c2a632947b54cbe9dec444438e3487ff2f9b8239e37cfbd7f3819ea340bf38a53630d56a0952

def subByte (b : Nat) : Nat := aesSbox / 2 ^ (8 * b) % 256
def invSubByte (b : Nat) : Nat := aesInvSbox / 2 ^ (8 * b) % 256

/-- Doubling in GF(2^8). -/
def xtime (b : Nat) : Nat := if b < 128 then 2 * b else (2 * b) ^^^ 0x11B

/-- Multiplication in GF(2^8) by a constant below 16. -/
def gmul (b c : Nat) : Nat :=
  (if c % 2 = 1 then b else 0) ^^^ (if c / 2 % 2 = 1 then xtime b else 0)
    ^^^ (if c / 4 % 2 = 1 then xtime (xtime b) else 0) ^^^ (if c / 8 % 2 = 1 then xtime (xtime (xtime b)) else 0)

/-- Bytes of two lists added in GF(2). -/
def xorBytes (a b : List Nat) : List Nat := a.zipWith (· ^^^ ·) b

/-- The next 32 bytes of the key schedule from the last 32; `rcon` is the round constant. -/
def aesKeyStep (k : List Nat) (rcon : Nat) : List Nat :=
  let t := [subByte (k.getD 29 0) ^^^ rcon, subByte (k.getD 30 0), subByte (k.getD 31 0), subByte (k.getD 28 0)]
  let w0 := xorBytes (k.take 4) t
  let w1 := xorBytes ((k.drop 4).take 4) w0
  let w2 := xorBytes ((k.drop 8).take 4) w1
  let w3 := xorBytes ((k.drop 12).take 4) w2
  let w4 := xorBytes ((k.drop 16).take 4) (w3.map subByte)
  let w5 := xorBytes ((k.drop 20).take 4) w4
  let w6 := xorBytes ((k.drop 24).take 4) w5
  let w7 := xorBytes ((k.drop 28).take 4) w6
  w0 ++ w1 ++ w2 ++ w3 ++ w4 ++ w5 ++ w6 ++ w7

/-- The fifteen round keys of a 32-byte key. -/
def aesRoundKeys (key : List Nat) : List (List Nat) :=
  let r := [1, 2, 4, 8, 16, 32, 64].foldl (fun (acc : List Nat × List Nat) c =>
    let k := aesKeyStep acc.2 c
    (acc.1 ++ k, k)) (key, key)
  (List.range 15).map fun i => (r.1.drop (16 * i)).take 16

/-- ShiftRows and its inverse, on 16 bytes by columns. -/
def shiftRows (s : List Nat) : List Nat :=
  [0, 5, 10, 15, 4, 9, 14, 3, 8, 13, 2, 7, 12, 1, 6, 11].map fun i => s.getD i 0
def invShiftRows (s : List Nat) : List Nat :=
  [0, 13, 10, 7, 4, 1, 14, 11, 8, 5, 2, 15, 12, 9, 6, 3].map fun i => s.getD i 0

/-- A column times a circulant matrix. -/
def mixCol (m : List Nat) (c : List Nat) : List Nat :=
  (List.range 4).map fun r => (List.range 4).foldl (fun a j => a ^^^ gmul (c.getD j 0) (m.getD ((j + 4 - r) % 4) 0)) 0

def mixCols (m : List Nat) (s : List Nat) : List Nat :=
  mixCol m (s.take 4) ++ mixCol m ((s.drop 4).take 4) ++ mixCol m ((s.drop 8).take 4) ++ mixCol m ((s.drop 12).take 4)

/-- Encrypt a 16-byte block under the round keys. -/
def aesEnc (rk : List (List Nat)) (b : List Nat) : List Nat :=
  let s := xorBytes b (rk.headD [])
  let s := ((rk.drop 1).take 13).foldl (fun s k => xorBytes (mixCols [2, 3, 1, 1] (shiftRows (s.map subByte))) k) s
  xorBytes (shiftRows (s.map subByte)) (rk.getD 14 [])

/-- Decrypt a 16-byte block. -/
def aesDec (rk : List (List Nat)) (b : List Nat) : List Nat :=
  let s := (invShiftRows (xorBytes b (rk.getD 14 []))).map invSubByte
  let s := ((rk.drop 1).take 13).reverse.foldl (fun s k =>
    (invShiftRows (mixCols [14, 11, 13, 9] (xorBytes s k))).map invSubByte) s
  xorBytes s (rk.headD [])

/-- A number as n bytes, little-endian, and back. -/
def toLe (n v : Nat) : List Nat := (List.range n).map fun k => v / 256 ^ k % 256
def fromLe (l : List Nat) : Nat := l.foldr (fun b v => b + 256 * v) 0
/-- A number as n bytes, big-endian, and back. -/
def toBe (n v : Nat) : List Nat := (toLe n v).reverse
def fromBe (l : List Nat) : Nat := l.foldl (fun v b => v * 256 + b) 0

/-- A list cut in pieces of n; `fuel` bounds the number of pieces. -/
def pieces {α : Type} (n : Nat) : Nat → List α → List (List α)
  | 0, _ => []
  | _, [] => []
  | fuel + 1, l => l.take n :: pieces n fuel (l.drop n)

/-! ### XTS-AES-256 (IEEE 1619) -/

/-- Multiply the tweak by α: the 16 bytes as a little-endian number. -/
def xtsAlpha (t : Nat) : Nat := if t < 2 ^ 127 then 2 * t else (2 * t - 2 ^ 128) ^^^ 0x87

/-- One data unit of whole blocks, encrypted or decrypted by `f` under K1; `t` is the tweak multiplier. -/
def xtsUnit (f : List Nat → List Nat) : List (List Nat) → Nat → List Nat
  | [], _ => []
  | b :: bs, t =>
    let tb := toLe 16 t
    xorBytes (f (xorBytes b tb)) tb ++ xtsUnit f bs (xtsAlpha t)

/-- XTS over a data unit; keys are 256-bit numbers whose byte k is bits [8k+7:8k]. -/
def xts (enc : Bool) (k1 k2 : Nat) (tweak : Nat) (bytes : List Nat) : List Nat :=
  let r1 := aesRoundKeys (toLe 32 k1)
  let t := fromLe (aesEnc (aesRoundKeys (toLe 32 k2)) (toLe 16 tweak))
  xtsUnit (if enc then aesEnc r1 else aesDec r1) (pieces 16 bytes.length bytes) t

/-! ### CMAC (SP 800-38B) -/

/-- Doubling of a subkey, as a big-endian number. -/
def cmacDbl (v : Nat) : Nat := if v < 2 ^ 127 then 2 * v else (2 * v - 2 ^ 128) ^^^ 0x87

/-- CMAC-AES-256 of a message; the key's byte k is bits [8k+7:8k]. -/
def cmac (key : Nat) (msg : List Nat) : List Nat :=
  let rk := aesRoundKeys (toLe 32 key)
  let k1 := cmacDbl (fromBe (aesEnc rk (List.replicate 16 0)))
  let k2 := cmacDbl k1
  let n := (msg.length + 15) / 16
  let n := if n = 0 then 1 else n
  let last := msg.drop (16 * (n - 1))
  let lastB := if last.length = 16 then xorBytes last (toBe 16 k1)
    else xorBytes (last ++ 0x80 :: List.replicate (15 - last.length) 0) (toBe 16 k2)
  let x := (pieces 16 (n - 1) msg).foldl (fun x b => aesEnc rk (xorBytes x b)) (List.replicate 16 0)
  aesEnc rk (xorBytes x lastB)

/-! ### RFC 3394 key wrap -/

/-- One wrap step: step number `t`, register A and the register R[i]. -/
def wrapStep (rk : List (List Nat)) (t : Nat) (a : Nat) (r : Nat) : Nat × Nat :=
  let b := fromBe (aesEnc rk (toBe 8 a ++ toBe 8 r))
  ((b / 2 ^ 64) ^^^ t, b % 2 ^ 64)

def unwrapStep (rk : List (List Nat)) (t : Nat) (a : Nat) (r : Nat) : Nat × Nat :=
  let b := fromBe (aesDec rk (toBe 8 (a ^^^ t) ++ toBe 8 r))
  (b / 2 ^ 64, b % 2 ^ 64)

/-- Wrap 64-bit words with the initial value `iv`; answers A followed by the words. -/
def kwWrap (key : Nat) (iv : Nat) (ws : List Nat) : List Nat :=
  let rk := aesRoundKeys (toLe 32 key)
  let n := ws.length
  let r := (List.range (6 * n)).foldl (fun (s : Nat × List Nat) k =>
    let q := wrapStep rk (k + 1) s.1 (s.2.getD (k % n) 0)
    (q.1, s.2.set (k % n) q.2)) (iv, ws)
  r.1 :: r.2

/-- Unwrap; answers the recovered initial value and the words. -/
def kwUnwrap (key : Nat) (ws : List Nat) : Nat × List Nat :=
  let rk := aesRoundKeys (toLe 32 key)
  let n := ws.length - 1
  (List.range (6 * n)).reverse.foldl (fun (s : Nat × List Nat) k =>
    let q := unwrapStep rk (k + 1) s.1 (s.2.getD (k % n) 0)
    (q.1, s.2.set (k % n) q.2)) (ws.headD 0, ws.drop 1)

/-! ### SHA-512, HMAC and HKDF -/

def sha512K : List Nat :=
  [0x428a2f98d728ae22, 0x7137449123ef65cd, 0xb5c0fbcfec4d3b2f, 0xe9b5dba58189dbbc, 0x3956c25bf348b538,
   0x59f111f1b605d019, 0x923f82a4af194f9b, 0xab1c5ed5da6d8118, 0xd807aa98a3030242, 0x12835b0145706fbe,
   0x243185be4ee4b28c, 0x550c7dc3d5ffb4e2, 0x72be5d74f27b896f, 0x80deb1fe3b1696b1, 0x9bdc06a725c71235,
   0xc19bf174cf692694, 0xe49b69c19ef14ad2, 0xefbe4786384f25e3, 0x0fc19dc68b8cd5b5, 0x240ca1cc77ac9c65] ++
  [0x2de92c6f592b0275, 0x4a7484aa6ea6e483, 0x5cb0a9dcbd41fbd4, 0x76f988da831153b5, 0x983e5152ee66dfab,
   0xa831c66d2db43210, 0xb00327c898fb213f, 0xbf597fc7beef0ee4, 0xc6e00bf33da88fc2, 0xd5a79147930aa725,
   0x06ca6351e003826f, 0x142929670a0e6e70, 0x27b70a8546d22ffc, 0x2e1b21385c26c926, 0x4d2c6dfc5ac42aed,
   0x53380d139d95b3df, 0x650a73548baf63de, 0x766a0abb3c77b2a8, 0x81c2c92e47edaee6, 0x92722c851482353b] ++
  [0xa2bfe8a14cf10364, 0xa81a664bbc423001, 0xc24b8b70d0f89791, 0xc76c51a30654be30, 0xd192e819d6ef5218,
   0xd69906245565a910, 0xf40e35855771202a, 0x106aa07032bbd1b8, 0x19a4c116b8d2d0c8, 0x1e376c085141ab53,
   0x2748774cdf8eeb99, 0x34b0bcb5e19b48a8, 0x391c0cb3c5c95a63, 0x4ed8aa4ae3418acb, 0x5b9cca4f7763e373,
   0x682e6ff3d6b2b8a3, 0x748f82ee5defb2fc, 0x78a5636f43172f60, 0x84c87814a1f0ab72, 0x8cc702081a6439ec] ++
  [0x90befffa23631e28, 0xa4506cebde82bde9, 0xbef9a3f7b2c67915, 0xc67178f2e372532b, 0xca273eceea26619c,
   0xd186b8c721c0c207, 0xeada7dd6cde0eb1e, 0xf57d4f7fee6ed178, 0x06f067aa72176fba, 0x0a637dc5a2c898a6,
   0x113f9804bef90dae, 0x1b710b35131c471b, 0x28db77f523047d84, 0x32caab7b40c72493, 0x3c9ebe0a15c9bebc,
   0x431d67c49c100d4c, 0x4cc5d4becb3e42b6, 0x597f299cfc657e2a, 0x5fcb6fab3ad6faec, 0x6c44198c4a475817]

def sha512H0 : List Nat :=
  [0x6a09e667f3bcc908, 0xbb67ae8584caa73b, 0x3c6ef372fe94f82b, 0xa54ff53a5f1d36f1, 0x510e527fade682d1, 0x9b05688c2b3e6c1f, 0x1f83d9abfb41bd6b, 0x5be0cd19137e2179]

def rotr64 (x n : Nat) : Nat := x / 2 ^ n + x % 2 ^ n * 2 ^ (64 - n)

/-- The message schedule, newest word first. -/
def shaSched : Nat → List Nat → List Nat
  | 0, w => w
  | n + 1, w =>
    let a := w.getD 14 0
    let b := w.getD 1 0
    let s0 := rotr64 a 1 ^^^ rotr64 a 8 ^^^ (a / 2 ^ 7)
    let s1 := rotr64 b 19 ^^^ rotr64 b 61 ^^^ (b / 2 ^ 6)
    shaSched n (((w.getD 15 0 + s0 + w.getD 6 0 + s1) % 2 ^ 64) :: w)

/-- One round on the eight working words. -/
def shaRound (v : List Nat) (kw : Nat) : List Nat :=
  match v with
  | [a, b, c, d, e, f, g, h] =>
    let s1 := rotr64 e 14 ^^^ rotr64 e 18 ^^^ rotr64 e 41
    let ch := (e &&& f) ^^^ ((2 ^ 64 - 1 - e) &&& g)
    let t1 := h + s1 + ch + kw
    let s0 := rotr64 a 28 ^^^ rotr64 a 34 ^^^ rotr64 a 39
    let mj := (a &&& b) ^^^ (a &&& c) ^^^ (b &&& c)
    [(t1 + s0 + mj) % 2 ^ 64, a, b, c, (d + t1) % 2 ^ 64, e, f, g]
  | _ => v

def shaBlock (h : List Nat) (blk : List Nat) : List Nat :=
  let w := ((pieces 8 16 blk).map fromBe).reverse
  let ws := (shaSched 64 w).reverse
  let v := (ws.zipWith (· + ·) sha512K).foldl shaRound h
  h.zipWith (fun a b => (a + b) % 2 ^ 64) v

/-- SHA-512 of a message. -/
def sha512 (msg : List Nat) : List Nat :=
  let z := (239 - msg.length % 128) % 128
  let m := msg ++ 0x80 :: List.replicate z 0 ++ toBe 16 (8 * msg.length)
  ((pieces 128 (m.length / 128) m).foldl shaBlock sha512H0).flatMap (toBe 8)

/-- HMAC-SHA-512. -/
def hmac512 (key msg : List Nat) : List Nat :=
  let k := if key.length > 128 then sha512 key else key
  let k := k ++ List.replicate (128 - k.length) 0
  sha512 (k.map (· ^^^ 0x5C) ++ sha512 (k.map (· ^^^ 0x36) ++ msg))

/-- The blocks of HKDF-Expand. -/
def hkdfBlocks (prk info : List Nat) : Nat → Nat → List Nat → List Nat
  | 0, _, _ => []
  | n + 1, i, t =>
    let t := hmac512 prk (t ++ info ++ [i])
    t ++ hkdfBlocks prk info n (i + 1) t

/-- HKDF-SHA-512. -/
def hkdf (salt ikm info : List Nat) (len : Nat) : List Nat :=
  (hkdfBlocks (hmac512 salt ikm) info ((len + 63) / 64) 1 []).take len

/-- The bytes of an ASCII string. -/
def ascii (s : String) : List Nat := s.toList.map (·.toNat)

/-! ### P-521 -/

def p521p : Nat := 2 ^ 521 - 1
def p521b : Nat :=
  0x0051953EB9618E1C9A1F929A21A0B68540EEA2DA725B99B315F3B8B489918EF109E156193951EC7E937B1652C0BD3BB1BF073573DF883D2C34F1EF451FD46B503F00
def p521n : Nat :=
  0x01FFFFFFFFFFFFFFFFFFFFFFFFFFFFFFFFFFFFFFFFFFFFFFFFFFFFFFFFFFFFFFFFFA51868783BF2F966B7FCC0148F709A5D03BB5C9B8899C47AEBB6FB71E91386409
def p521gx : Nat :=
  0x00C6858E06B70404E9CD9E3ECB662395B4429C648139053FB521F828AF606B4D3DBAA14B5E77EFE75928FE1DC127A2FFA8DE3348B3C1856A429BF97E7E31C2E5BD66
def p521gy : Nat :=
  0x011839296A789A3BC0045C8A5FB42C7D1BD998F54449579B446817AFBD17273E662C97EE72995EF42640C550B9013FAD0761353C7086A272C24088BE94769FD16650

/-- Power modulo m by repeated squaring; `fuel` bounds the exponent's bits. -/
def powMod (m : Nat) : Nat → Nat → Nat → Nat
  | 0, _, _ => 1 % m
  | fuel + 1, b, e =>
    if e = 0 then 1 % m
    else
      let r := powMod m fuel (b * b % m) (e / 2)
      if e % 2 = 1 then r * b % m else r

/-- The inverse modulo a prime. -/
def invMod (m a : Nat) : Nat := powMod m 600 (a % m) (m - 2)

/-- Add two points of the curve; `none` is the point at infinity. -/
def ecAdd (a b : Option (Nat × Nat)) : Option (Nat × Nat) :=
  match a, b with
  | none, q => q
  | q, none => q
  | some (x1, y1), some (x2, y2) =>
    let p := p521p
    if x1 = x2 ∧ (y1 + y2) % p = 0 then none
    else
      let l := if x1 = x2 then (3 * x1 * x1 + 3 * (p - 1)) * invMod p (2 * y1) % p
        else (y2 + p - y1) * invMod p (x2 + p - x1) % p
      let x3 := (l * l + 2 * p - x1 - x2) % p
      some (x3, (l * (x1 + p - x3) + p - y1) % p)

/-- A multiple of a point; `fuel` bounds the scalar's bits. -/
def ecMul : Nat → Nat → Option (Nat × Nat) → Option (Nat × Nat)
  | 0, _, _ => none
  | fuel + 1, k, q =>
    if k = 0 then none
    else
      let r := ecMul fuel (k / 2) (ecAdd q q)
      if k % 2 = 1 then ecAdd r q else r

def p521G : Option (Nat × Nat) := some (p521gx, p521gy)

/-- The point lies on the curve. -/
def onCurve (x y : Nat) : Bool :=
  x < p521p && y < p521p && y * y % p521p == (x * x % p521p * x + 3 * (p521p - 1) * x + p521b) % p521p

/-- A 133-byte uncompressed point. -/
def encPoint (q : Nat × Nat) : List Nat := 4 :: toBe 66 q.1 ++ toBe 66 q.2

/-- Read a 133-byte uncompressed point of the curve. -/
def decPoint (l : List Nat) : Option (Nat × Nat) :=
  let x := fromBe ((l.drop 1).take 66)
  let y := fromBe ((l.drop 67).take 66)
  if l.length = 133 && l.headD 0 == 4 && onCurve x y then some (x, y) else none

/-- The public point of a private scalar. -/
def ecPub (d : Nat) : Nat × Nat := (ecMul 521 d p521G).getD (0, 0)

/-- The x-coordinate of the shared point, 66 bytes big-endian. -/
def ecdh (d : Nat) (q : Nat × Nat) : Option (List Nat) := (ecMul 521 d (some q)).map fun r => toBe 66 r.1

/-- A scalar from random bits: a value from 1 to n − 1. -/
def toScalar (v : Nat) : Nat := v % (p521n - 1) + 1

/-- Sign the SHA-512 digest of a message with the nonce `k`: r then s, 132 bytes. -/
def ecdsaSign (d k : Nat) (msg : List Nat) : List Nat :=
  let z := fromBe (sha512 msg)
  let r := (ecPub k).1 % p521n
  let s := invMod p521n k * (z + r * d) % p521n
  toBe 66 r ++ toBe 66 s

/-- Verify a 132-byte signature r then s over a SHA-512 digest. -/
def ecdsaOk (q : Nat × Nat) (digest sig : List Nat) : Bool :=
  let r := fromBe (sig.take 66)
  let s := fromBe ((sig.drop 66).take 66)
  if r = 0 ∨ s = 0 ∨ r ≥ p521n ∨ s ≥ p521n ∨ sig.length ≠ 132 then false
  else
    let w := invMod p521n s
    match ecAdd (ecMul 521 (fromBe digest * w % p521n) p521G) (ecMul 521 (r * w % p521n) (some q)) with
    | none => false
    | some (x, _) => x % p521n == r

/-! ### CRCs -/

/-- One bit into a CRC register of width w with generator g, most significant bit first. -/
def crcBit (w g : Nat) (c : Nat) (b : Bool) : Nat :=
  let top := c / 2 ^ (w - 1) % 2 = 1
  let c := c * 2 % 2 ^ w
  if top != b then c ^^^ g else c

end Sys2Proof.Machine
end

