-- ==== Sys2Proof/Machine/Line.lean ====
section
/-! DEFINITION. The line format: the data code of R129 and R130, the tag code of R131, the address check of R132,
decoding a line (R134), and CRC-32C (R406). -/

namespace Sys2Proof.Machine

/-- Set bits among the low `n` of a number. -/
def popcount (n v : Nat) : Nat := ((List.range n).filter fun i => v.testBit i).length

/-- Columns of the data code: the 84 vectors of weight 3, then the first 44 of weight 5 (R129). -/
def dataCols : List (BitVec 9) :=
  (((List.range 512).filter fun v => popcount 9 v = 3) ++
    ((List.range 512).filter fun v => popcount 9 v = 5).take 44).map (BitVec.ofNat 9)

/-- `col[i]` (R129). -/
def dataCol (i : Nat) : BitVec 9 := dataCols.getD i 0

/-- The check of a data word: the XOR of the columns of its set bits (R129). -/
def dataCheck (w : BitVec 128) : BitVec 9 :=
  (List.range 128).foldl (fun c i => if w.getLsbD i then c ^^^ dataCol i else c) 0

/-- Columns of the tag code: the first 18 vectors of weight 3 (R131). -/
def tagCols : List (BitVec 6) :=
  (((List.range 64).filter fun v => popcount 6 v = 3).take 18).map (BitVec.ofNat 6)

/-- `tcol[i]` (R131). -/
def tagCol (i : Nat) : BitVec 6 := tagCols.getD i 0

/-- The check of a tag word (R131). -/
def tagCheck (w : BitVec 18) : BitVec 6 :=
  (List.range 18).foldl (fun c i => if w.getLsbD i then c ^^^ tagCol i else c) 0

/-- What a decoder says of one codeword: clean, corrected or uncorrectable (R130). -/
inductive CwVerdict where
  | clean | corrected | bad | ignored
  deriving DecidableEq, Repr

/-- Verdict code of `ECCD.RESULT.VERDICT` (R152). -/
def CwVerdict.code : CwVerdict → Nat
  | .clean => 0 | .corrected => 1 | .bad => 2 | .ignored => 3

/-- One decoded codeword: its verdict, its syndrome and the corrected word and check. -/
structure CwRes (n m : Nat) where
  verdict : CwVerdict
  synd : BitVec m
  word : BitVec n
  check : BitVec m
  deriving DecidableEq, Repr

/-- Decode a data word against its stored check (R130). -/
def decodeData (w : BitVec 128) (c : BitVec 9) : CwRes 128 9 :=
  let s := dataCheck w ^^^ c
  if s = 0 then ⟨.clean, s, w, c⟩
  else if popcount 9 s.toNat = 1 then ⟨.corrected, s, w, c ^^^ s⟩
  else match dataCols.findIdx? fun v => v == s with
    | some i => ⟨.corrected, s, w ^^^ BitVec.twoPow 128 i, c⟩
    | none => ⟨.bad, s, w, c⟩

/-- Decode a tag word against its stored check (R131). -/
def decodeTag (w : BitVec 18) (c : BitVec 6) : CwRes 18 6 :=
  let s := tagCheck w ^^^ c
  if s = 0 then ⟨.clean, s, w, c⟩
  else if popcount 6 s.toNat = 1 then ⟨.corrected, s, w, c ^^^ s⟩
  else match tagCols.findIdx? fun v => v == s with
    | some i => ⟨.corrected, s, w ^^^ BitVec.twoPow 18 i, c⟩
    | none => ⟨.bad, s, w, c⟩

/-- Feed the low `n` bits of a number into a CRC register, most significant first. -/
def crcFeed (w g : Nat) : Nat → Nat → Nat → Nat
  | 0, _, c => c
  | n + 1, v, c => crcFeed w g n v (crcBit w g c (v.testBit n))

/-- The address check over the line index and the corrected tag words (R132). -/
def acrc (line : Nat) (ta tb tc : BitVec 18) : BitVec 20 :=
  let f := crcFeed 20 0x2232B
  BitVec.ofNat 20 (f 18 tc.toNat (f 18 tb.toNat (f 18 ta.toNat (f 46 line 0xFFFFF))))

/-- CRC-32C of bytes in ascending order (R406). -/
def crc32c (bytes : List Nat) : Nat := bytes.foldl (fun c b => crcFeed 32 0x1EDC6F41 8 b c) 0xFFFFFFFF

/-- The three tag words of a line (R126). -/
structure Tags where
  ta : BitVec 18 := 0
  tb : BitVec 18 := 0
  tc : BitVec 18 := 0
  deriving DecidableEq, Repr

def Tags.stamp (t : Tags) : BitVec 18 := t.ta
def Tags.state (t : Tags) : Nat := bitsOf' t.tb.toNat 17 16
  where bitsOf' (v hi lo : Nat) : Nat := v / 2 ^ lo % 2 ^ (hi - lo + 1)
def Tags.slot (t : Tags) : BitVec 10 := t.tb.extractLsb' 6 10
def Tags.phase (t : Tags) : Bool := t.tb.getLsbD 5
def Tags.poison (t : Tags) : Bool := t.tb.getLsbD 4
def Tags.w (t : Tags) : BitVec 4 := t.tb.extractLsb' 0 4
def Tags.fromTwin (t : Tags) : Bool := t.tc.getLsbD 7
def Tags.ld (t : Tags) : BitVec 7 := t.tc.extractLsb' 0 7

/-- Tag words from their fields (R126). -/
def mkTags (stamp : BitVec 18) (state : BitVec 2) (slot : BitVec 10) (phase poison : Bool) (w : BitVec 4)
    (fromTwin : Bool) (ld : BitVec 7) : Tags :=
  { ta := stamp
    tb := BitVec.ofNat 18 (state.toNat * 2 ^ 16 + slot.toNat * 2 ^ 6 + (if phase then 2 ^ 5 else 0)
      + (if poison then 2 ^ 4 else 0) + w.toNat)
    tc := BitVec.ofNat 18 ((if fromTwin then 2 ^ 7 else 0) + ld.toNat) }

/-- Data word w of a line (R123). -/
def lineWord (d : LineData) (w : Nat) : BitVec 128 := d.extractLsb' (128 * w) 128

/-- A line from its four data words. -/
def joinWords (w0 w1 w2 w3 : BitVec 128) : LineData :=
  BitVec.ofNat 512 (w0.toNat + w1.toNat * 2 ^ 128 + w2.toNat * 2 ^ 256 + w3.toNat * 2 ^ 384)

/-- The sideband of a line: checks over the data as the medium stores it, tag words and ACRC (R124, R125). -/
def mkSide (line : Nat) (d : LineData) (t : Tags) : Sideband :=
  let c (w : Nat) := (dataCheck (lineWord d w)).toNat * 2 ^ (9 * w)
  let tag (v : BitVec 18) (lo : Nat) := (v.toNat + (tagCheck v).toNat * 2 ^ 18) * 2 ^ lo
  BitVec.ofNat 128 (c 0 + c 1 + c 2 + c 3 + tag t.ta 36 + tag t.tb 60 + tag t.tc 84
    + (acrc line t.ta t.tb t.tc).toNat * 2 ^ 108)

/-- Encode a line for a medium that stores `d`. -/
def encodeLine (line : Nat) (d : LineData) (t : Tags) : SLine := { data := d, side := mkSide line d t }

/-- The verdict of a line (R134). -/
inductive LineVerdict where
  | clean
  | corrected
  /-- Uncorrectable, with the CAUSE code of R144: 0 CODE, 1 ADDRESS, 2 STATE. -/
  | bad (cause : Nat)
  deriving DecidableEq, Repr

/-- A decoded line. -/
structure LineRes where
  verdict : LineVerdict
  tags : Tags
  /-- Data as the medium stores it, corrected, with zeros for words whose W = 0. -/
  data : LineData
  /-- The line with every correction applied, as Heal writes it back. -/
  fixed : SLine
  /-- Codewords 0 to 3 the data words, 4 TA, 5 TB, 6 TC (R144). -/
  cws : List CwVerdict
  synds : List Nat
  crcDiff : BitVec 20
  deriving DecidableEq, Repr

/-- Decode a line over the address `line` the access names; `fmtTags` are the formatter's tag words for which
the address checked is `fmtLine` instead (R97, R134). `frame` applies the STATE check of R127. -/
def decodeLine (line : Nat) (frame : Bool) (fmtTags : Option (Tags × Nat)) (l : SLine) : LineRes :=
  let tg (lo : Nat) := decodeTag (l.side.extractLsb' lo 18) (l.side.extractLsb' (lo + 18) 6)
  let a := tg 36
  let b := tg 60
  let c := tg 84
  let t : Tags := { ta := a.word, tb := b.word, tc := c.word }
  let tagBad := a.verdict = .bad ∨ b.verdict = .bad ∨ c.verdict = .bad
  let addr := match fmtTags with
    | some (ft, fl) => if frame && t == ft then fl else line
    | none => line
  let stored := l.side.extractLsb' 108 20
  let diff := acrc addr t.ta t.tb t.tc ^^^ stored
  let dw (w : Nat) : CwRes 128 9 :=
    if tagBad || !(t.w.getLsbD w) then ⟨.ignored, 0, lineWord l.data w, l.side.extractLsb' (9 * w) 9⟩
    else decodeData (lineWord l.data w) (l.side.extractLsb' (9 * w) 9)
  let d0 := dw 0
  let d1 := dw 1
  let d2 := dw 2
  let d3 := dw 3
  let cws := [d0.verdict, d1.verdict, d2.verdict, d3.verdict, a.verdict, b.verdict, c.verdict]
  let verdict :=
    if tagBad then .bad 0
    else if diff ≠ 0 then .bad 1
    else if frame && t.state != 0 then .bad 2
    else if cws.contains .bad then .bad 0
    else if cws.contains .corrected then .corrected
    else .clean
  let out (w : Nat) (r : CwRes 128 9) : BitVec 128 := if t.w.getLsbD w then r.word else 0
  let side := BitVec.ofNat 128 (d0.check.toNat + d1.check.toNat * 2 ^ 9 + d2.check.toNat * 2 ^ 18
    + d3.check.toNat * 2 ^ 27 + (a.word.toNat + a.check.toNat * 2 ^ 18) * 2 ^ 36
    + (b.word.toNat + b.check.toNat * 2 ^ 18) * 2 ^ 60 + (c.word.toNat + c.check.toNat * 2 ^ 18) * 2 ^ 84
    + stored.toNat * 2 ^ 108)
  { verdict := verdict, tags := t
    data := joinWords (out 0 d0) (out 1 d1) (out 2 d2) (out 3 d3)
    fixed := { data := joinWords d0.word d1.word d2.word d3.word, side := side }
    cws := cws
    synds := [d0.synd.toNat, d1.synd.toNat, d2.synd.toNat, d3.synd.toNat, a.synd.toNat, b.synd.toNat, c.synd.toNat]
    crcDiff := diff }

/-! ### Lines and tiles under a key -/

/-- The tweak of a line (R261). -/
def lineTweak (gen : BitVec 32) (phase : Bool) (line : Nat) : Nat :=
  gen.toNat * 2 ^ 64 + (if phase then 2 ^ 46 else 0) + line % 2 ^ 46

/-- The tweak of a sector (R263). -/
def sectorTweak (gen : BitVec 32) (phase : Bool) (sector : Nat) : Nat :=
  2 ^ 127 + gen.toNat * 2 ^ 64 + (if phase then 2 ^ 46 else 0) + sector % 2 ^ 40

/-- The 64 bytes of a line, and back. -/
def lineBytes (d : LineData) : List Nat := toLe 64 d.toNat
def bytesLine (l : List Nat) : LineData := BitVec.ofNat 512 (fromLe l)

/-- XTS over one line (R261). -/
def lineXts (enc : Bool) (k1 k2 : BitVec 256) (gen : BitVec 32) (phase : Bool) (line : Nat) (d : LineData) : LineData :=
  bytesLine (xts enc k1.toNat k2.toNat (lineTweak gen phase line) (lineBytes d))

/-- XTS over the sixteen sectors of a tile, held as 1,024 lines' worth of bytes (R263). -/
def tileXts (enc : Bool) (k1 k2 : BitVec 256) (gen : BitVec 32) (phase : Bool) (tile : Nat) (ls : List LineData) :
    List LineData :=
  (List.range 16).flatMap fun k =>
    let bytes := ((ls.drop (64 * k)).take 64).flatMap lineBytes
    (pieces 64 64 (xts enc k1.toNat k2.toNat (sectorTweak gen phase (16 * tile + k)) bytes)).map bytesLine

end Sys2Proof.Machine
end

