-- ==== Sys2Proof/Machine/FeryBase.lean ====
section
/-! DEFINITION. The Ferry link's messages as slots (R198 to R203), their TAGs (R205), the tile trailer (R92), and the
sender: control queue, sailing stream, credits, sequence numbers and the replay buffer (R197, R198, R207). -/

namespace Sys2Proof.Machine

/-- The 32 bytes of a slot: byte b holds bits [8b+7:8b] (R203). -/
def slotBytes (s : BitVec 256) : List Nat := toLe 32 s.toNat

/-- Bytes as whole slots, zero-padded. -/
def slotsOf (bytes : List Nat) : List (BitVec 256) :=
  (pieces 32 (bytes.length + 1) bytes).map fun b => BitVec.ofNat 256 (fromLe b)

/-- The trailer of a tile with a given CMAC (R92). -/
def trailerBytes (t : TileImg) : List Nat :=
  toLe 8 (t.tile % 2 ^ 36) ++ toLe 8 t.sailing ++ toLe 2 (t.slot.toNat + (if t.phase then 1024 else 0))
    ++ toLe 2 t.ld.toNat ++ toLe 4 (min t.wcount 0xFFFFFFFF) ++ toLe 8 0 ++ toLe 128 t.poison.toNat
    ++ List.replicate 80 0 ++ toLe 16 t.cmac.toNat

/-- A trailer read back, with the sector ciphertext beside it (R92). -/
def trailerOf (b : List Nat) (data : List LineData) : TileImg :=
  { data := data
    tile := fromLe (b.take 8) % 2 ^ 36
    sailing := fromLe ((b.drop 8).take 8)
    slot := BitVec.ofNat 10 (fromLe ((b.drop 16).take 2))
    phase := (fromLe ((b.drop 16).take 2)).testBit 10
    ld := BitVec.ofNat 7 (fromLe ((b.drop 18).take 2))
    wcount := fromLe ((b.drop 20).take 4)
    poison := BitVec.ofNat 1024 (fromLe ((b.drop 32).take 128))
    cmac := BitVec.ofNat 128 (fromLe ((b.drop 240).take 16)) }

/-- The tile CMAC under a CMAC key: trailer bytes 0 to 239, then the sector ciphertext (R264). -/
def tileCmac (key : BitVec 256) (t : TileImg) : BitVec 128 :=
  BitVec.ofNat 128 (fromLe (cmac key.toNat ((trailerBytes t).take 240 ++ t.data.flatMap lineBytes)))

/-- The slots of a MIRROR_LINES message (R200). -/
def mirrorSlots (stamp : BitVec 18) (ld : BitVec 7) (slot : BitVec 10) (phase : Bool) (ls : List MLine) :
    List (BitVec 256) :=
  let desc := (ls.zipIdx).foldl (fun v e =>
    v + (e.1.line + e.1.w.toNat * 2 ^ 46 + bnum e.1.poison * 2 ^ 50) * 2 ^ (48 + 51 * e.2)) 0
  BitVec.ofNat 256 (desc + bnum phase * 2 ^ 43 + slot.toNat * 2 ^ 33 + ld.toNat * 2 ^ 26 + stamp.toNat * 2 ^ 8
    + (ls.length - 1) * 2 ^ 6 + 0x01)
    :: ls.flatMap fun l => [l.data.extractLsb' 0 256, l.data.extractLsb' 256 256]

/-- The header of a SAILING_CLOSE with its CMAC (R202). -/
def closeSlot (s lines msgs : Nat) (split : Bool) (mac : BitVec 128) : BitVec 256 :=
  BitVec.ofNat 256 (mac.toNat * 2 ^ 128 + msgs % 2 ^ 24 * 2 ^ 96 + lines % 2 ^ 24 * 2 ^ 72 + s % 2 ^ 64 * 2 ^ 8
    + bnum split * 2 ^ 6 + 0x02)

/-- Every 32nd slot of a list from the c-th (R203). -/
def chain (slots : List (BitVec 256)) (c : Nat) : List (BitVec 256) :=
  (slots.zipIdx.filter fun e => e.2 % 32 = c).map (·.1)

/-- The sailing CMAC (R203): `slots` are the slots of its MIRROR_LINES in order, `first` the sequence number of the
first one, `cseq` that of the close. -/
def sailingCmac (key : BitVec 256) (slots : List (BitVec 256)) (close0 : BitVec 256) (first cseq : Nat) : BitVec 128 :=
  let ts := (List.range 32).flatMap fun c => cmac key.toNat ((chain slots c).flatMap slotBytes)
  BitVec.ofNat 128 (fromLe (cmac key.toNat (ts ++ slotBytes close0 ++ toLe 8 first ++ toLe 8 cseq)))

/-- The TAG of a message over its slots with the TAG zero (R205). -/
def msgTag (key : BitVec 256) (seq : Nat) (slots : List (BitVec 256)) : BitVec 128 :=
  BitVec.ofNat 128 (fromLe (cmac key.toNat (toLe 8 seq ++ slots.flatMap slotBytes)))

/-- Put a TAG in a message's header slot. -/
def withTag (tag : BitVec 128) : List (BitVec 256) → List (BitVec 256)
  | [] => []
  | h :: t => (h ||| (tag.setWidth 256 <<< 128)) :: t

/-- The slots of a control message with its TAG zero (R199). -/
def CtlMsg.slots : CtlMsg → List (BitVec 256)
  | .linkCtl ack nak => [BitVec.ofNat 256 (bnum nak * 2 ^ 20 + ack.toNat * 2 ^ 8 + 0x3F)]
  | .sailingAck s st => [BitVec.ofNat 256 (st % 16 * 2 ^ 72 + s % 2 ^ 64 * 2 ^ 8 + 0x03)]
  | .recallReq l r w => [BitVec.ofNat 256 (w % 2 ^ 28 * 2 ^ 70 + r % 2 ^ 16 * 2 ^ 54 + l % 2 ^ 46 * 2 ^ 8 + 0x04)]
  | .recallResp r st stamp w p slot ph ld d =>
    [BitVec.ofNat 256 (ld.toNat * 2 ^ 62 + bnum ph * 2 ^ 61 + slot.toNat * 2 ^ 51 + bnum p * 2 ^ 50
      + w.toNat * 2 ^ 46 + stamp.toNat * 2 ^ 28 + st % 16 * 2 ^ 24 + r % 2 ^ 16 * 2 ^ 8 + 0x05),
      d.extractLsb' 0 256, d.extractLsb' 256 256]
  | .pull t => [BitVec.ofNat 256 (t % 2 ^ 36 * 2 ^ 8 + 3 * 2 ^ 6 + 0x06)]
  | .resyncBegin s full => [BitVec.ofNat 256 (bnum full * 2 ^ 72 + s % 2 ^ 64 * 2 ^ 8 + 0x07)]
  | .resyncEnd s => [BitVec.ofNat 256 (s % 2 ^ 64 * 2 ^ 8 + 0x08)]
  | .heartbeat c solo split rs mw me og mg ap =>
    [BitVec.ofNat 256 (bnum me * 2 ^ 76 + bnum mw * 2 ^ 75 + bnum rs * 2 ^ 74 + bnum split * 2 ^ 73
      + bnum solo * 2 ^ 72 + c % 2 ^ 64 * 2 ^ 8 + 0x09),
      BitVec.ofNat 256 (ap % 2 ^ 64 * 2 ^ 128 + mg % 2 ^ 64 * 2 ^ 64 + og % 2 ^ 64)]
  | .rekey k e pay =>
    let ds := slotsOf (pay.map (·.toNat))
    BitVec.ofNat 256 (ds.length % 2 ^ 16 * 2 ^ 72 + e % 2 ^ 64 * 2 ^ 8 + k % 4 * 2 ^ 6 + 0x0A) :: ds

/-- A control message's rank in the control queue (R198). -/
def CtlMsg.rank : CtlMsg → Nat
  | .linkCtl _ _ => 0 | .sailingAck _ _ => 1 | .heartbeat _ _ _ _ _ _ _ _ _ => 2 | .rekey _ _ _ => 3
  | .recallResp _ _ _ _ _ _ _ _ _ => 4 | .recallReq _ _ _ => 5 | .pull _ => 6
  | .resyncBegin _ _ => 7 | .resyncEnd _ => 7

/-- Whether a control message carries a TAG (R199, R204). -/
def CtlMsg.tagged : CtlMsg → Bool
  | .linkCtl _ _ => false
  | .rekey k _ _ => k != 0
  | _ => true

/-- Whether a control message takes a sequence number (R205). -/
def CtlMsg.counted : CtlMsg → Bool
  | .linkCtl _ _ => false
  | _ => true

/-- The slots of a stream message with its TAG zero (R199 to R202). A close is built by the sender. The words of a
KEY_EVENT are wrapped under the direction's wrap key with the initial value of R258. -/
def StreamMsg.slots (wrap : BitVec 256) : StreamMsg → List (BitVec 256)
  | .mirror st ld sl ph ls => mirrorSlots st ld sl ph ls
  | .close s => [closeSlot s 0 0 false 0]
  | .tileData t =>
    BitVec.ofNat 256 (t.sailing % 2 ^ 64 * 2 ^ 44 + t.tile % 2 ^ 36 * 2 ^ 8 + 0x06)
      :: (t.data.flatMap fun d => [d.extractLsb' 0 256, d.extractLsb' 256 256]) ++ slotsOf (trailerBytes t)
  | .tileMark lost tile s => [BitVec.ofNat 256 (s % 2 ^ 64 * 2 ^ 44 + tile % 2 ^ 36 * 2 ^ 8 + (if lost then 2 else 1) * 2 ^ 6 + 0x06)]
  | .keyEvent op slot ph gen ws =>
    let hd := BitVec.ofNat 256 (gen.toNat * 2 ^ 19 + bnum ph * 2 ^ 18 + slot.toNat * 2 ^ 8 + op % 4 * 2 ^ 6 + 0x0B)
    let iv := 0x4B59 * 2 ^ 48 + gen.toNat * 2 ^ 16 + slot.toNat * 2 ^ 6 + bnum ph * 2 ^ 5
    let body := if ws.isEmpty then List.replicate 128 0
      else ((kwWrap wrap.toNat iv (ws.map (·.toNat))).flatMap (toBe 8)) ++ List.replicate 24 0
    hd :: slotsOf body

/-- Codewords a message of n slots fills. Each message starts a codeword and is padded with idle slots (a choice of
the model, DESIGN CHOICE, notes/assumptions/9.md). -/
def cwOf (n : Nat) : Nat := (n + 19) / 20

/-- The replay buffer of 2,048 codewords has room (R197). -/
def cwRoom (f : FeryHalf) (n : Nat) : Bool := f.replay.length + cwOf n ≤ 2048 || f.replay.isEmpty

/-- Put slots on the wire: codeword sequence numbers, the replay buffer and the message sequence (R197, R205). -/
def feryWire (f : FeryHalf) (counted : Bool) (slots : List (BitVec 256)) : FeryHalf :=
  let k := cwOf slots.length
  { f with
    wire := { seq := if counted then some f.txSeq else none, slots := slots } :: f.wire
    txSeq := if counted then f.txSeq + 1 else f.txSeq
    txCseq := f.txCseq + BitVec.ofNat 12 k
    replay := f.replay ++ (List.range k).map fun j => f.txCseq + BitVec.ofNat 12 j }

/-- Send one control message. -/
def ferySendCtl (f : FeryHalf) (m : CtlMsg) : FeryHalf :=
  let key := (f.keys.map (·.macTx)).getD 0
  let s := m.slots
  feryWire f m.counted (if m.tagged then withTag (msgTag key f.txSeq s) s else s)

/-- The message of the control queue that is sent first (R198); one that carries a TAG waits for the session's keys. -/
def ctlFirst (q : List CtlMsg) (keyed : Bool) : Option CtlMsg :=
  (List.range 8).findSome? fun r => q.find? fun m => m.rank == r && (keyed || !m.tagged)

/-- Send control messages while the replay buffer has room. -/
def feryPumpCtl : Nat → FeryHalf → FeryHalf
  | 0, f => f
  | n + 1, f =>
    match ctlFirst f.ctlq f.keys.isSome with
    | none => f
    | some m =>
      if cwRoom f m.slots.length then feryPumpCtl n (ferySendCtl { f with ctlq := f.ctlq.erase m } m) else f

/-- The slots a stream message fills. -/
def StreamMsg.count : StreamMsg → Nat
  | .mirror _ _ _ _ ls => 1 + 2 * ls.length
  | .close _ => 1
  | .tileData _ => 2057
  | .tileMark _ _ _ => 1
  | .keyEvent _ _ _ _ _ => 5

/-- Spend credit for n stream slots: one credit for every 2,048 (R207). -/
def feryPay (f : FeryHalf) (n : Nat) : Option FeryHalf :=
  if n ≤ f.creditSlots then some { f with creditSlots := f.creditSlots - n }
  else
    let need := (n - f.creditSlots + 2047) / 2048
    if need ≤ f.credits then
      some { f with credits := f.credits - need, creditSlots := f.creditSlots + 2048 * need - n }
    else none

/-- Send the `REKEY` SWITCH of a rekey whose new keys are derived, and go over to them (R206 steps 3 and 4). -/
def ferySwitch (f : FeryHalf) : FeryHalf :=
  match f.rekey, f.keys with
  | some r, some k =>
    match r.newKeys with
    | some n =>
      if r.switchSent then f
      else
        { ferySendCtl f (.rekey 2 r.epoch []) with
          keys := some { k with macTx := n.macTx, wrapTx := n.wrapTx }
          txSeq := 0
          rekey := some { r with switchSent := true } }
    | none => f
  | _, _ => f

/-- Send one stream message (R198 to R203). A SWITCH goes directly after a close. -/
def ferySendStream (split : Bool) (f : FeryHalf) (m : StreamMsg) : FeryHalf :=
  let mac := (f.keys.map (·.macTx)).getD 0
  let wrap := (f.keys.map (·.wrapTx)).getD 0
  match m with
  | .mirror _ _ _ _ ls =>
    let s := m.slots wrap
    { feryWire f true s with
      accSlots := f.accSlots ++ s
      accFirst := some (f.accFirst.getD f.txSeq)
      accLines := f.accLines + ls.length
      accMsgs := f.accMsgs + 1 }
  | .close n =>
    let z := closeSlot n f.accLines f.accMsgs split 0
    let c := sailingCmac mac f.accSlots z (f.accFirst.getD f.txSeq) f.txSeq
    ferySwitch { feryWire f true [closeSlot n f.accLines f.accMsgs split c] with
      accSlots := [], accFirst := none, accLines := 0, accMsgs := 0 }
  | _ =>
    let s := m.slots wrap
    feryWire f true (withTag (msgTag mac f.txSeq s) s)

/-- Send the sailing stream while credit and the replay buffer allow (R197, R207). -/
def feryPumpStream (split : Bool) : Nat → FeryHalf → FeryHalf
  | 0, f => f
  | n + 1, f =>
    match f.stream with
    | [] => f
    | m :: ms =>
      if cwRoom f m.count then
        match feryPay f m.count with
        | some f' => feryPumpStream split n (ferySendStream split { f' with stream := ms } m)
        | none => f
      else f

/-- Return staging credits to the far end, up to 255 in each codeword's header (R195, R207). -/
def feryReturn (f : FeryHalf) : FeryHalf :=
  let k := (f.creditsDue + 254) / 255
  if k = 0 || 2048 < f.replay.length + k then f
  else { f with
    wire := { seq := none, slots := [], credit := f.creditsDue } :: f.wire
    creditsDue := 0
    txCseq := f.txCseq + BitVec.ofNat 12 k
    replay := f.replay ++ (List.range k).map fun j => f.txCseq + BitVec.ofNat 12 j }

/-- Send what waits on a half's Ferry link: control first, then the stream once the pairing is accepted (R210). -/
def feryPump (split : Bool) (f : FeryHalf) : FeryHalf :=
  if f.link = .session ∨ f.link = .up then
    let f := feryReturn f
    let f := feryPumpCtl f.ctlq.length f
    if f.link = .session && f.paired then feryPumpStream split f.stream.length f else f
  else f

/-- A rekey whose two SWITCH messages have gone is complete: `REKEY_DONE` (R206). A `REKEY` command that waits for it reads
DONE. -/
def Dev.rekeyDone (d : Dev) (h : Half) : Dev :=
  let f := (d.half h).fery
  match f.rekey with
  | some r =>
    if r.switchSent && r.switchSeen then
      let d := (d.upd h fun x => { x with fery := { x.fery with
        rekey := none, epoch := r.epoch, rekeyAt := 2 ^ 40 } }).raise h pgFERY .rekeyDone
      if d.fld h pgFERY 0x0CC 31 28 = 1 && f.promoting.isNone && !f.retraining then d.setReg h pgFERY 0x0CC (2 * 2 ^ 28) else d
    else d
  | none => d

/-- Queue a control message and send what can be sent. -/
def Dev.feryCtl (d : Dev) (h : Half) (m : CtlMsg) : Dev :=
  (d.upd h fun x => { x with fery := feryPump d.split { x.fery with ctlq := x.fery.ctlq ++ [m] } }).rekeyDone h

/-- The half sends a sailing stream: a session is up, the pairing accepted and mirroring has not stopped. -/
def feryMirroring (f : FeryHalf) : Bool := f.link == .session && f.paired && !f.stopSending

/-- Queue a message of the sailing stream while mirroring, and send what can be sent. -/
def Dev.feryStream (d : Dev) (h : Half) (m : StreamMsg) : Dev :=
  (d.upd h fun x =>
    if feryMirroring x.fery then
      { x with fery := feryPump d.split { x.fery with stream := x.fery.stream ++ [m] } }
    else x).rekeyDone h

/-- The data condition of R59: credit for the far end's staging ring has run out while the stream waits. -/
def feryNoCredit (f : FeryHalf) : Bool :=
  match f.stream with
  | [] => false
  | m :: _ => feryMirroring f && (feryPay f m.count).isNone

end Sys2Proof.Machine
end

