-- ==== Sys2Proof/Machine/Sail.lean ====
section
/-! DEFINITION. Sailings: LD contexts and their conditions (R77), fences (R46 to R52), the visibility floor (R55),
opening and sealing sailings (R36 to R42), the backlog (R59), going and leaving solo (R59, R60), GPF (R61).
Log entries of notes/assumptions that bear on this file: DEDUCED 18, DEDUCED 33, DEDUCED 41. -/

namespace Sys2Proof.Machine

/-! ### LD contexts -/

/-- An LD context of a half. -/
def Dev.ldc (d : Dev) (h : Half) (c : Nat) : LdCtx := smGetD (d.half h).lds c {}

/-- Change an LD context. -/
def Dev.updLd (d : Dev) (h : Half) (c : Nat) (f : LdCtx → LdCtx) : Dev :=
  d.upd h fun x => { x with lds := smPut x.lds c {} (f (smGetD x.lds c {})) }

/-- `LDP.BIND` fields (R70). -/
def Dev.ldOn (d : Dev) (h : Half) (c : Nat) : Bool := d.fld h (pgLDP c) 0x040 31 31 == 1
def Dev.ldNum (d : Dev) (h : Half) (c : Nat) : Nat := d.fld h (pgLDP c) 0x040 22 16
def Dev.ldId (d : Dev) (h : Half) (c : Nat) : Nat := d.fld h (pgLDP c) 0x040 11 8
def Dev.ldSub (d : Dev) (h : Half) (c : Nat) : Nat := d.fld h (pgLDP c) 0x040 5 4
def Dev.ldPort (d : Dev) (h : Half) (c : Nat) : Nat := d.fld h (pgLDP c) 0x040 1 0

/-- The contexts of a half that present an LD. -/
def Dev.ctxs (d : Dev) (h : Half) : List Nat := (List.range 64).filter fun c => d.ldOn h c

/-- The half and context that present an LD number. -/
def Dev.findLd (d : Dev) (ld : Nat) : Option (Half × Nat) :=
  d.halves.findSome? fun h => ((d.ctxs h).find? fun c => d.ldNum h c == ld).map fun c => (h, c)

/-- The context bound to a port, sub-link and LD-ID (R70). -/
def Dev.ctxAt (d : Dev) (h : Half) (port sub ldid : Nat) : Option Nat :=
  (d.ctxs h).find? fun c => d.ldPort h c == port && d.ldSub h c == sub && d.ldId h c == ldid

/-- The home half of an address given in 64 MiB units: DPA[51] (R12). -/
def homeOfUnit (u : Nat) : Half := if u.testBit 25 then .east else .west

/-- The extents of an LD: the static extent, from LDA 0 upwards, and the Dynamic Capacity extents (R72). -/
def Dev.extents (d : Dev) (h : Half) (c : Nat) : List Extent :=
  let base := d.reg64 h (pgLDP c) 0x048
  let size := (d.reg h (pgLDP c) 0x050).toNat
  let st : List Extent := if size = 0 then [] else [{ region := 0, lda := 0, dpa := bitsOf base 51 26, len := 4 * size }]
  st ++ (d.ldc h c).extents

/-- The LD has capacity in a half. -/
def Dev.ldIn (d : Dev) (h : Half) (c : Nat) (k : Half) : Bool :=
  (d.extents h c).any fun e => homeOfUnit e.dpa == k

/-- A cross-half LD has capacity in the half other than its port's. -/
def Dev.crossLd (d : Dev) (h : Half) (c : Nat) : Bool := d.ldIn h c h.other

/-! ### Arming and conditions -/

/-- `SAIL.STATUS.ARMED` (R42). -/
def Dev.armed (d : Dev) (h : Half) : Bool := (d.half h).sail.lfReady && (d.half h).sail.dirtyOk

/-- The half numbers its sailings alone: the FSC-9418-C, or Split and not yet rejoined (R4, R333, R334). -/
def Dev.apart (d : Dev) : Bool := d.single || (d.split && d.rejoin == 0)

/-- The half has completed its start-up with the DRAM it needs, so that its LDs' media are ready (R80, R99). -/
def Dev.mediaUp (d : Dev) (h : Half) : Bool := (d.half h).pwr.started && !(d.half h).tier.undersized

/-- A half is armed, or holds no tile for want of DRAM, so that no seal waits for it (R99, DEDUCED, notes/assumptions/33.md). -/
def Dev.armedOk (d : Dev) (h : Half) : Bool := d.armed h || (d.half h).tier.undersized

/-- The persistence domains a seal needs: both halves' unless the half acts alone (R40, R333). -/
def Dev.armedFor (d : Dev) (h : Half) : Bool :=
  if d.apart then d.armedOk h else d.armedOk .west && d.armedOk .east

/-- The beacon master chosen by BEACON_WEST (R10); West on the FSC-9418-C (R4). -/
def Dev.beacon (d : Dev) : Half :=
  if d.single || d.west.strap.eff.getLsbD 12 then .west else .east

/-- The half opens sailings by its own timer: the chosen beacon master, or either half while apart (R333). -/
def Dev.isMaster (d : Dev) (h : Half) : Bool := d.apart || d.beacon == h

/-- The LD refuses access: its capacity lies in a half whose voyage record was missing or not complete (R62). -/
def Dev.accessRefused (d : Dev) (h : Half) (c : Nat) : Bool :=
  d.halves.any fun k => (d.half k).pwr.refusing && d.ldIn h c k

/-- `LDP.EV_STATE` of an LD (R77). -/
def Dev.evStateOf (d : Dev) (h : Half) (c : Nat) : BitVec 8 :=
  let x := d.ldc h c
  let inHalf (p : Half → Bool) := d.halves.any fun k => d.ldIn h c k && p k
  BitVec.ofNat 8 (bnum (d.accessRefused h c) * 128 + bnum x.mediaDisabled * 64 + bnum x.writeRefused * 32
    + bnum (inHalf fun k => (d.half k).thrm.step != 0) * 16
    + bnum (inHalf fun k => !(d.armed k)) * 8
    + bnum (d.half h).sail.holding * 4
    + bnum (d.split && d.crossLd h c) * 2 + bnum d.solo)

/-- Set a bit of `EV_LATCH`; the vector of `EV_IRQ` is sent when a bit with its MASK bit becomes set. The `LDP` page
carries the same event at the same bit (R77). -/
def Dev.evLatch (d : Dev) (h : Half) (c bit : Nat) : Dev :=
  let old := (d.ldc h c).evLatch
  let d := d.raiseBit h (pgLDP c) bit (d.ldNum h c) 0
  let d := d.updLd h c fun x => { x with evLatch := x.evLatch ||| BitVec.twoPow 11 bit }
  if !(old.getLsbD bit) && (d.fld h (pgLDP c) 0x208 10 0).testBit bit then
    d.emit (.msixLd (d.ldNum h c) (d.fld h (pgLDP c) 0x208 26 16))
  else d

/-- Latch the rises of one LD's `EV_STATE` (R77). -/
def Dev.noteLd (d : Dev) (h : Half) (c : Nat) : Dev :=
  let now := d.evStateOf h c
  let was := (d.ldc h c).evState
  if now = was then d
  else
    let d := d.updLd h c fun x => { x with evState := now }
    (List.range 8).foldl (fun d k => if now.getLsbD k && !(was.getLsbD k) then d.evLatch h c k else d) d

/-- Latch the rises of every LD's conditions. -/
def Dev.note (d : Dev) : Dev := d.eachHalf fun d h => (d.ctxs h).foldl (fun d c => d.noteLd h c) d

/-- Set LF_READY or DIRTY_OK; `DISARMED` is raised when the domain stops being armed (R42). -/
def Dev.setArm (d : Dev) (h : Half) (lf ok : Bool) : Dev :=
  let was := d.armed h
  let d := d.upd h fun x => { x with sail := { x.sail with lfReady := lf, dirtyOk := ok } }
  let d := if was && !(d.armed h) then d.raise h pgSAIL .disarmed else d
  if was != d.armed h then d.note else d

/-! ### Delivery at a port -/

/-- The port a request came by. -/
def ReqSrc.port : ReqSrc → Option (Half × Nat × Nat)
  | .host h p c _ => some (h, p, c)
  | _ => none

/-- Requests of a port that wait in the half (R89). -/
def Dev.portQueue (d : Dev) (h : Half) (p : Nat) : Nat :=
  let x := d.half h
  ((x.tier.fetching ++ x.tier.dramReads ++ x.tier.held ++ x.sail.heldWrites).filter fun r =>
    match r.src with
    | .host k q _ _ => k == h && q == p
    | _ => false).length

/-- DevLoad of a response: 0 light, 1 optimal, 2 moderate overload, 3 severe overload (R89). -/
def Dev.devLoad (d : Dev) (h : Half) (p : Nat) : Nat :=
  let q := 100 * d.portQueue h p
  let n := Config.portDepth + 1
  if (d.half h).sail.holding || 90 * n < q then 3 else if 75 * n ≤ q then 2 else if 50 * n ≤ q then 1 else 0

/-- Raise an LD's fence mark, never lowering it (R46). -/
def Dev.raiseMark (d : Dev) (h : Half) (c s : Nat) : Dev := d.updLd h c fun x => { x with mark := max x.mark s }

/-- A request of the LD has been answered (R74). -/
def Dev.ldDone (d : Dev) (h : Half) (c : Nat) : Dev := d.updLd h c fun x => { x with inFlight := x.inFlight - 1 }

/-- Let an answer leave by its port: data with its poison, or a completion; `RD_LINES` counts a returned line and
`POISON_RET` latches poison (R46, R77, R90). An acceptance leaves for the other half as `MEM_WR_ACK` (R29). -/
def Dev.deliver (d : Dev) (k : Half) (f : Floor) : Dev :=
  match f.src with
  | .host h p c _ =>
    let d := if f.marks then d.raiseMark h c f.sailing else d
    let d := d.ldDone h c
    match f.data with
    | some data =>
      let d := d.wrap64 h (pgHPT p) 0x050
      let d := if f.poison then d.evLatch h c 9 else d
      d.emit (.readData f.src data f.poison (d.devLoad h p))
    | none => d.emit (.completion f.src (d.devLoad h p))
  | .mailbox h c => (d.updLd h c fun x => { x with mboxBusy := false }).emit (.completion f.src 0)
  | .ford tag => d.fordSend k (.memWrAck [tag])
  | .recall _ | .dropped => d

/-- Apply the visibility floor (R55) to data at the half whose port it leaves by, and to a completion at the half that
accepted the write (DEDUCED, notes/assumptions/18.md): hold it until both halves have opened its sailing, and count the wait. -/
def Dev.floor (d : Dev) (h : Half) (f : Floor) : Dev :=
  if f.sailing ≤ (d.half h).sail.bothOpen then d.deliver h f
  else (d.upd h fun x => { x with sail := { x.sail with floor := x.sail.floor ++ [f] } }).sat h pgSAIL 0x078

/-- Both halves are known to have opened sailing s: let go what waited for it. -/
def Dev.openBoth (d : Dev) (h : Half) (s : Nat) : Dev :=
  let b := max (d.half h).sail.bothOpen s
  let go := (d.half h).sail.floor.filter fun f => f.sailing ≤ b
  let d := d.upd h fun x => { x with sail := { x.sail with
    bothOpen := b
    floor := x.sail.floor.filter fun f => !(decide (f.sailing ≤ b)) } }
  go.foldl (fun d f => d.deliver h f) d

/-! ### Fences -/

/-- Write the completion record and advance the ring; PHASE flips on each wrap (R49, R52). -/
def Dev.fenceRecord (d : Dev) (h : Half) (c target status reason : Nat) (token : Word) : Dev :=
  let x := d.ldc h c
  let n := 2 ^ d.fld h (pgLDP c) 0x120 7 4
  let base := d.reg64 h (pgLDP c) 0x118
  let rec0 := target % 2 ^ 64 * 2 ^ 64 + x.doneSeq % 2 ^ 16 * 2 ^ 48 + reason * 2 ^ 36 + bnum x.recPhase * 2 ^ 35
    + status * 2 ^ 32 + token.toNat
  let d := d.updLd h c fun x =>
    if x.recIndex + 1 ≥ n then { x with recIndex := 0, recPhase := !x.recPhase } else { x with recIndex := x.recIndex + 1 }
  d.emit (.fenceRecord (d.ldNum h c) (base + 16 * x.recIndex) (BitVec.ofNat 128 rec0))

/-- Complete a fence: record, `FENCE_DONE`, MSI-X, in that order (R49). A failed one raises `FENCE_FAILED`. -/
def Dev.fenceDone (d : Dev) (h : Half) (c target status reason : Nat) (token : Word) : Dev :=
  let seq := ((d.ldc h c).doneSeq + 1) % 2 ^ 16
  let cfg := (d.reg h (pgLDP c) 0x120).toNat
  let d := d.updLd h c fun x => { x with doneSeq := seq }
  let d := if cfg.testBit 0 then d.fenceRecord h c target status reason token else d
  let d := d.updLd h c fun x => { x with doneStatus := status, doneReason := reason, doneToken := token }
  let d := if cfg.testBit 1 then d.emit (.msixLd (d.ldNum h c) (bitsOf cfg 26 16)) else d
  if status = 4 then d.raise h pgSAIL .fenceFailed (d.ldNum h c) else d

/-- Status of a fence whose target is sealed: 3 SPLIT, 2 SOLO, 1 SEALED (R50). -/
def Dev.fenceStatus (d : Dev) (h : Half) (c target : Nat) : Nat :=
  let s := (d.half h).sail
  if d.crossLd h c && s.splitFrom != 0 && decide (s.splitFrom ≤ target) && (d.rejoin == 0 || decide (target < d.rejoin)) then 3
  else if d.solo && s.soloFrom != 0 && decide (s.soloFrom ≤ target) then 2
  else 1

/-- Complete the fences of one LD whose targets are sealed, in doorbell order (R48). -/
def Dev.fencesLd (h : Half) (c : Nat) : List Fence → Dev → Dev
  | [], d => d
  | f :: fs, d =>
    if f.target ≤ (d.half h).sail.sealed then
      let d := d.updLd h c fun x => { x with fences := x.fences.tail }
      Dev.fencesLd h c fs (d.fenceDone h c f.target (d.fenceStatus h c f.target) 0 f.token)
    else d

/-- Complete every fence of a half's LDs whose target is sealed. -/
def Dev.fences (d : Dev) (h : Half) : Dev :=
  (d.half h).lds.foldl (fun d e => Dev.fencesLd h e.1 (d.ldc h e.1).fences d) d

/-- Ring a fence (R47, R48): its target is the LD's mark; a 65th outstanding one fails at once with QUEUE_FULL;
one whose target is sealed completes at once. -/
def Dev.ringFence (d : Dev) (h : Half) (c : Nat) (token : Word) : Dev :=
  let d := d.updLd h c fun x => { x with lastToken := token }
  let t := (d.ldc h c).mark
  if (d.ldc h c).fences.length ≥ 64 then d.fenceDone h c t 4 1 token
  else
    let d := d.updLd h c fun x => { x with fences := x.fences ++ [{ token := token, target := t }] }
    Dev.fencesLd h c (d.ldc h c).fences d

/-- Discard an LD's fences at a reset: SEQ advances by one for each, OUTSTANDING falls to 0, and `FENCE_DONE` shows
FAILED, reason RESET and the newest discarded token; no record and no MSI-X (R65). -/
def Dev.dropFences (d : Dev) (h : Half) (c : Nat) : Dev :=
  match (d.ldc h c).fences.getLast? with
  | none => d
  | some f =>
    (d.updLd h c fun x => { x with
      fences := []
      doneSeq := (x.doneSeq + x.fences.length) % 2 ^ 16
      doneStatus := 4
      doneReason := 2
      doneToken := f.token }).raise h pgSAIL .fenceFailed (d.ldNum h c)

/-! ### Sealing -/

/-- Sailings below the rejoin sailing of a Split seal without the other half (R333, R334). -/
def Dev.sealsAlone (d : Dev) (s : Nat) : Bool := d.single || (d.split && (d.rejoin == 0 || decide (s < d.rejoin)))

/-- Send `SEAL_READY` for every acknowledged sailing of an armed half that has not sent it (R40). -/
def Dev.sendReady (d : Dev) (h : Half) : Dev :=
  if d.solo || !(d.armedOk h) then d
  else
    (d.half h).sail.ledger.foldl (fun d e =>
      if e.acked && !e.readySent && !(d.sealsAlone e.s) then
        (d.upd h fun x => { x with sail := { x.sail with
          ledger := x.sail.ledger.map fun g => if g.s = e.s then { g with readySent := true } else g } }).fordSend h (.sealReady e.s)
      else d) d

/-- The oldest unsealed sailing of a half can seal (R40, R59, R333). -/
def Dev.canSeal (d : Dev) (h : Half) (e : Ledger) : Bool :=
  e.closed && (if d.solo then d.armedFor h
    else d.armedOk h && e.acked && (d.sealsAlone e.s || (e.readySent && e.otherReady)))

/-- Strict completions of a sailing leave at its seal, in the order accepted (R45). That of a cross-half write raises
the mark to the port half's current sailing + 1 where the port's half is the follower (R46). -/
def Dev.strictGo (d : Dev) (h : Half) (s : Nat) : Dev :=
  let go := (d.half h).sail.strict.filter fun x => x.sailing ≤ s
  let d := d.upd h fun x => { x with sail := { x.sail with strict := x.sail.strict.filter fun y => !(decide (y.sailing ≤ s)) } }
  go.foldl (fun d x =>
    if x.cross then
      let m := if d.isMaster h then x.sailing else (d.half h).sail.current + 1
      d.deliver h { src := x.src, ld := x.ld, sailing := m, data := none }
    else d.floor h { src := x.src, ld := x.ld, sailing := x.sailing, data := none }) d

/-- Complete GPF phase 2 once the master has sealed its target (R61). -/
def Dev.gpfCheck (d : Dev) : Dev :=
  match d.gpf with
  | some t => if t ≤ (d.half d.beacon).sail.sealed then { d with gpf := none }.emit (.gpf 2) else d
  | none => d

/-- Split ends once each half has sealed every sailing below the rejoin sailing (R334 step 5). -/
def Dev.splitCheck (d : Dev) : Dev :=
  if d.split && d.rejoin != 0 && d.halves.all fun h => (d.half h).sail.ledger.all fun e => decide (d.rejoin ≤ e.s) then
    ({ d with split := false }).note
  else d

/-- Backlog of a half: sailings opened and not sealed. -/
def Dev.backlog (d : Dev) (h : Half) : Nat := (d.half h).sail.ledger.length

/-- Whether the limit of R59 stands: the backlog, or no staging credit in either half. -/
def Dev.atLimit (d : Dev) : Bool :=
  !d.solo && d.halves.any fun h =>
    decide (d.fld h pgSAIL 0x044 28 16 ≤ d.backlog h) || feryNoCredit (d.half h).fery

/-- Set HOLDING in both halves (R59). -/
def Dev.setHold (d : Dev) (on : Bool) : Dev :=
  if d.halves.all fun h => (d.half h).sail.holding == on then d
  else
    let d := d.eachHalf fun d h =>
      let d := d.upd h fun x => { x with sail := { x.sail with holding := on } }
      if on then d.raise h pgSAIL .backlogHold else d
    d.note

/-- Writes resume when the backlog has fallen 64 below the limit and the data condition has cleared (R59). -/
def Dev.holdCheck (d : Dev) : Dev :=
  if d.halves.any (fun h => (d.half h).sail.holding) && d.halves.all (fun h =>
      (d.solo || decide (d.backlog h + 64 ≤ d.fld h pgSAIL 0x044 28 16)) && !(feryNoCredit (d.half h).fery)) then
    d.setHold false
  else d

/-- Seal the oldest sailing of a half. -/
def Dev.sealOne (d : Dev) (h : Half) (e : Ledger) : Dev :=
  let d := d.upd h fun x => { x with sail := { x.sail with
    sealed := e.s
    mirrored := if d.solo then x.sail.mirrored else e.s
    ledger := x.sail.ledger.tail } }
  ((d.strictGo h e.s).fences h)

/-- Seal a half's sailings in order while they can seal. -/
def Dev.sealLoop : Nat → Half → Dev → Dev
  | 0, _, d => d
  | n + 1, h, d =>
    match (d.half h).sail.ledger with
    | [] => d
    | e :: _ => if d.canSeal h e then Dev.sealLoop n h (d.sealOne h e) else d

/-- Seal whatever can seal in both halves, and what follows a seal. -/
def Dev.seal (d : Dev) : Dev :=
  let d := d.eachHalf fun d h => d.sendReady h
  let d := d.eachHalf fun d h => Dev.sealLoop (d.backlog h) h d
  ((d.gpfCheck).splitCheck).holdCheck

/-! ### Solo -/

/-- Go solo: stop mirroring in both halves, set `SOLO_FROM` to the sailing after the last sealed, seal the backlog
locally (R59). -/
def Dev.goSolo (d : Dev) : Dev :=
  if d.solo then d
  else
    let d := { d with solo := true }
    let d := d.eachHalf fun d h =>
      (d.upd h fun x => { x with
        sail := { x.sail with soloFrom := x.sail.sealed + 1, limitHit := false }
        fery := { x.fery with stopSending := true, stream := [] } }).raise h pgSAIL .soloEnter
    (d.note).seal

/-- Leave solo: the resync has completed (R60). -/
def Dev.exitSolo (d : Dev) : Dev :=
  if d.solo then
    let d := { d with solo := false }
    let d := d.eachHalf fun d h => d.raise h pgSAIL .soloExit
    (d.note).seal
  else d

/-! ### Opening a sailing -/

/-- Close the current sailing: its close enters the stream (R41, R202). -/
def Dev.closeSailing (d : Dev) (h : Half) : Dev :=
  match (d.half h).sail.ledger.getLast? with
  | none => d
  | some e =>
    let d := d.upd h fun x => { x with sail := { x.sail with
      ledger := x.sail.ledger.map fun g => if g.s = e.s then { g with closed := true } else g } }
    d.feryStream h (.close e.s)

/-- Renew the reservation when the current sailing comes within 2^26 of it (R408). -/
def Dev.reserve (d : Dev) (h : Half) : Dev :=
  let s := (d.half h).sail
  if (d.half h).flash.formatted && s.reservePending.isNone && decide (s.reservation ≤ s.current + 2 ^ 26) then
    d.upd h fun x => { x with sail := { x.sail with reservePending := some (x.sail.current + 2 ^ 27) } }
  else d

/-- Open a sailing in a half. No sailing opens at or above the reservation (R408); a half without a formatted NAND has no
records area and keeps none. -/
def Dev.openSailing (d : Dev) (h : Half) (s : Nat) : Dev :=
  if (d.half h).flash.formatted && decide ((d.half h).sail.reservation ≤ s) then d
  else
    let d := d.closeSailing h
    let d := d.upd h fun x => { x with sail := { x.sail with
      current := s, openedAt := d.time, length := d.fld h pgSAIL 0x040 9 0 * 1000, ledger := x.sail.ledger ++ [{ s := s }] } }
    d.reserve h

/-- What the backlog limit does at a sailing boundary (R59): note it, and act on it at the next one. -/
def Dev.limitAct (d : Dev) (h : Half) : Dev :=
  if d.atLimit then
    if !(d.armedFor h) then d.setHold true
    else if d.fld h pgSAIL 0x044 0 0 = 0 then d.setHold true
    else if (d.half h).sail.limitHit then d.goSolo
    else d.upd h fun x => { x with sail := { x.sail with limitHit := true } }
  else d.upd h fun x => { x with sail := { x.sail with limitHit := false } }

/-- A sailing opens in a half: its own boundary, then the limit and whatever can seal. -/
def Dev.boundary (d : Dev) (h : Half) (s : Nat) : Dev := ((d.openSailing h s).limitAct h).seal

/-- The master opens its next sailing: it hands `BEACON_OPEN` to the Ford, or alone has opened it for both
(R38, R333). -/
def Dev.masterOpen (d : Dev) (h : Half) (s : Nat) : Dev :=
  let d := d.boundary h s
  if (d.half h).sail.current = s then
    if d.apart then d.openBoth h s else d.fordSend h (.beaconOpen s)
  else d

/-- The sailing length in ns (R37). -/
def Dev.lengthNs (d : Dev) (h : Half) : Nat := d.fld h pgSAIL 0x040 9 0 * 1000

/-- The most recent sailing at or before `cur` whose low `n` bits are `stamp`; the current one where there is
none (R35). -/
def resolve (n cur stamp : Nat) : Nat :=
  let back := (cur % 2 ^ n + 2 ^ n - stamp % 2 ^ n) % 2 ^ n
  if back ≤ cur then cur - back else cur

/-- A line of sailing s is accepted by a half: its ledger counts it and it enters the mirror stream (R28, R201). -/
def Dev.mirror (d : Dev) (h : Half) (m : StreamMsg) (lines : Nat) : Dev :=
  let d := d.upd h fun x => { x with sail := { x.sail with
    ledger := x.sail.ledger.map fun g => if g.s = x.sail.current then { g with lines := g.lines + lines } else g } }
  let d := d.feryStream h m
  if feryNoCredit (d.half h).fery then
    d.upd h fun x => { x with sail := { x.sail with limitHit := true } }
  else d

end Sys2Proof.Machine
end

