-- ==== Sys2Proof/Machine/Tile.lean ====
section
/-! DEFINITION. Tiles and frames: addresses (R12, R94), the Manifest entry and its change list (R100, R103), the frame
table and the allocator (R96, R97), regions (R98), keys of a line (R261), the stored lines of a frame, and the Landing
cache's directory (R179 to R185). -/

namespace Sys2Proof.Machine

/-! ### Addresses -/

/-- Half, in-half tile number DPA[50:16] and line of the tile, of a line index DPA[51:6] (R12). -/
def lineHalf (line : Nat) : Half := if line.testBit 45 then .east else .west
def lineTile (line : Nat) : Nat := line / 1024 % 2 ^ 35
def lineJ (line : Nat) : Nat := line % 1024

/-- The full tile number DPA[51:16], and the line index of line j of a tile. -/
def tileNo (h : Half) (t : Nat) : Nat := h.num * 2 ^ 35 + t
def lineOf (h : Half) (t j : Nat) : Nat := (tileNo h t) * 1024 + j

/-- Subchannel and local index of a frame (R94). -/
def frameSub (f : Nat) : Nat := f / 2 ^ 22
def frameLocal (f : Nat) : Nat := f % 2 ^ 22

/-- The formatter address of line j of a frame (R97). -/
def fmtAddr (f j : Nat) : Nat := 2 ^ 45 + 1024 * f + j

/-! ### Channels -/

/-- A channel of a half. -/
def Dev.chan (d : Dev) (h : Half) (c : Nat) : Chan := (d.half h).dram.chans.getD c {}

/-- Change a channel. -/
def Dev.updChan (d : Dev) (h : Half) (c : Nat) (f : Chan → Chan) : Dev :=
  d.upd h fun x => { x with dram := { x.dram with chans := lmod x.dram.chans c f } }

/-- Subchannel k (0 to 23) of a half. -/
def Dev.sub (d : Dev) (h : Half) (k : Nat) : SubCh := if k % 2 = 0 then (d.chan h (k / 2)).sub0 else (d.chan h (k / 2)).sub1

/-- Change a subchannel. -/
def Dev.updSub (d : Dev) (h : Half) (k : Nat) (f : SubCh → SubCh) : Dev :=
  d.updChan h (k / 2) fun c => if k % 2 = 0 then { c with sub0 := f c.sub0 } else { c with sub1 := f c.sub1 }

/-- The subchannel's frames can be used. -/
def Dev.subOk (d : Dev) (h : Half) (k : Nat) : Bool :=
  match (d.sub h k).state with
  | .absent | .training | .failed | .disabled => false
  | _ => true

/-- The subchannel holds its requests: it replays, retrains, changes its timing set, or is in training mode (R164, R168,
R170, R174). -/
def Dev.subHeld (d : Dev) (h : Half) (k : Nat) : Bool :=
  [SubState.replay, .retraining, .freqChange].contains (d.sub h k).state
    || (d.fld h (pgDTRN (k / 2)) 0x040 31 31 == 1 && (d.fld h (pgDTRN (k / 2)) 0x040 27 26).testBit (k % 2))

/-- Subchannels with frames. -/
def Dev.subs (d : Dev) (h : Half) : List Nat := (List.range 24).filter fun k => d.subOk h k && decide (0 < (d.chan h (k / 2)).framesPerSub)

/-! ### Regions and the pool (R98) -/

/-- Frames of the Manifest, staging ring, frame table and diagnostic regions of a half (R98). -/
def Dev.regionFrames (d : Dev) (h : Half) : Nat :=
  let total := lsum ((List.range 24).map fun k => (d.chan h (k / 2)).framesPerSub)
  ((d.half h).tier.rawTiles * 16 + 65535) / 65536 + (d.half h).fery.eff.stageGib * 16384 + (total * 8 + 65535) / 65536 + 16

/-- Frames a subchannel gives to the regions: its highest local indices, shared evenly (DESIGN CHOICE, notes/assumptions/11.md). -/
def Dev.regionOf (d : Dev) (h : Half) (k : Nat) : Nat :=
  let us := (List.range 24).filter fun j => decide (0 < (d.chan h (j / 2)).framesPerSub)
  let n := us.length
  if n = 0 then 0 else d.regionFrames h / n + bnum (decide (us.findIdx (· == k) < d.regionFrames h % n))

/-- Pool frames of a subchannel. -/
def Dev.poolOf (d : Dev) (h : Half) (k : Nat) : Nat := (d.chan h (k / 2)).framesPerSub - d.regionOf h k

/-- Frames in the pool, retired ones aside (R122). -/
def Dev.poolFrames (d : Dev) (h : Half) : Nat :=
  lsum ((d.subs h).map fun k => d.poolOf h k) - ((d.half h).tier.ftab.filter fun e => e.2.state == .retired).length

/-! ### Frame table -/

/-- A frame-table entry. -/
def Dev.frame (d : Dev) (h : Half) (f : Nat) : FrameEntry := smGetD (d.half h).tier.ftab f {}

/-- Frames in a listed state. -/
def Dev.countFrames (d : Dev) (h : Half) (s : FrameState) : Nat := ((d.half h).tier.ftab.filter fun e => e.2.state == s).length

/-- `TIER.FREE_FMT` and `TIER.FREE_RAW` (R122). -/
def Dev.freeFmt (d : Dev) (h : Half) : Nat := d.countFrames h .freeFmt
def Dev.freeRaw (d : Dev) (h : Half) : Nat :=
  d.poolFrames h - d.countFrames h .freeFmt - d.countFrames h .used
    - ((d.half h).tier.ftab.filter fun e => e.2.state == .diag && decide (frameLocal e.1 < d.poolOf h (frameSub e.1))).length

/-- Change a frame-table entry; `FREE_LOW` is raised when the free frames fall below the threshold (R110, R122). -/
def Dev.setFrame (d : Dev) (h : Half) (f : Nat) (e : FrameEntry) : Dev :=
  let low := (d.reg h pgTIER 0x068).toNat
  let was := d.freeFmt h + d.freeRaw h
  let d := d.upd h fun x => { x with tier := { x.tier with ftab := smPut x.tier.ftab f {} e } }
  if low ≤ was ∧ d.freeFmt h + d.freeRaw h < low then d.raise h pgTIER .freeLow else d

/-- Free a frame to FREE_RAW (R104). -/
def Dev.freeFrame (d : Dev) (h : Half) (f : Nat) : Dev :=
  let d := d.upd h fun x => { x with tier := { x.tier with dram := x.tier.dram.filter fun e => e.1 / 1024 != f } }
  if (d.frame h f).state = .retired then d else d.setFrame h f {}

/-- Format a FREE_RAW frame (R97). An unlisted stored line is the formatter's. -/
def Dev.formatFrame (d : Dev) (h : Half) (f : Nat) : Dev :=
  let d := d.upd h fun x => { x with tier := { x.tier with dram := x.tier.dram.filter fun e => e.1 / 1024 != f } }
  d.setFrame h f { state := .freeFmt, tile := 0 }

/-- Logical ranks of a channel; each has 32 banks (R153). -/
def Dev.ranks (d : Dev) (h : Half) (c : Nat) : Nat := max 1 (d.chan h c).ranks

/-- The lowest frame of a bank in a free state, if any. -/
def Dev.bankFrame (d : Dev) (h : Half) (k rb : Nat) (s : FrameState) : Option Nat :=
  let nb := d.ranks h (k / 2) * 32
  let rows := (d.poolOf h k + nb - 1 - rb) / nb
  let tab := (d.half h).tier.ftab
  ((List.range (min rows (tab.length + 1))).map fun r => k * 2 ^ 22 + r * nb + rb).find? fun f => (smGetD tab f {}).state == s

/-- The bank least recently given a frame, and its frame, in a subchannel (R96); `skip` leaves a bank out. -/
def Dev.subFrame (d : Dev) (h : Half) (k : Nat) (s : FrameState) (skip : Option Nat := none) : Option (Nat × Nat) :=
  let nb := d.ranks h (k / 2) * 32
  ((List.range nb).filter fun rb => skip != some rb).foldl (fun best rb =>
    match d.bankFrame h k rb s with
    | none => best
    | some f =>
      let use (b : Nat) := smGetD (d.half h).tier.bankUse (k * 512 + b) 0
      match best with
      | none => some (rb, f)
      | some (b, g) => if use rb < use b then some (rb, f) else some (b, g)) none

/-- The next subchannel of an LD's rotation that holds a frame of the kind (R96). -/
def Dev.rotate (d : Dev) (h : Half) (ld : Nat) (s : FrameState) : Option (Nat × Nat × Nat) :=
  let cur := smGetD (d.half h).tier.cursor ld 0
  ((List.range 24).map fun i => (cur + i) % 24).findSome? fun k =>
    if d.subOk h k then (d.subFrame h k s).map fun e => (k, e.1, e.2) else none

/-- Take a frame for an LD, preferring one kind of free frame over the other (R96, R97). -/
def Dev.allocFrame (d : Dev) (h : Half) (ld : Nat) (pref other : FrameState) : Option (Nat × Dev) :=
  match (d.rotate h ld pref).orElse fun _ => d.rotate h ld other with
  | none => none
  | some (k, b, f) =>
    some (f, d.upd h fun x => { x with tier := { x.tier with
      cursor := smPut x.tier.cursor ld 0 ((k + 1) % 24)
      bankUse := smPut x.tier.bankUse (k * 512 + b) 0 (x.tier.allocCount + 1)
      allocCount := x.tier.allocCount + 1 } })

/-! ### The Manifest -/

/-- A Manifest entry of a half, by in-half tile number. -/
def Dev.tile (d : Dev) (h : Half) (t : Nat) : ManfEntry := smGetD (d.half h).tier.manf t {}

/-- Dirty tiles: DRAM_DIRTY or SINKING (R112). -/
def Dev.dirtyTiles (d : Dev) (h : Half) : Nat :=
  ((d.half h).tier.manf.filter fun e => e.2.state == .dramDirty || e.2.state == .sinking).length

/-- The dirty budget in tiles (R112), and its high-water mark. -/
def Dev.budget (d : Dev) (h : Half) : Nat := d.fld h pgTIER 0x040 15 0 * 16384
def Dev.highMark (d : Dev) (h : Half) : Nat := d.budget h * d.fld h pgTIER 0x044 7 0 / 100
def Dev.lowMark (d : Dev) (h : Half) : Nat := d.budget h * d.fld h pgTIER 0x044 15 8 / 100

/-- New-dirty writes are held: at the budget, or while the changed blocks stand at one eighth of it (R103, R112). -/
def Dev.newDirtyHeld (d : Dev) (h : Half) : Bool :=
  decide (d.budget h ≤ d.dirtyTiles h) || decide (d.budget h ≤ 8 * (d.half h).tier.changed.length)

/-- Follow the dirty data: DIRTY_HIGH and DIRTY_STALL on crossing, and DIRTY_OK (R112). -/
def Dev.dirtyNote (d : Dev) (h : Half) : Dev :=
  let n := d.dirtyTiles h
  let hi := decide (d.highMark h ≤ n)
  let st := d.newDirtyHeld h
  let t := (d.half h).tier
  let d := if hi && !t.dirtyHigh then d.raise h pgTIER .dirtyHigh else d
  let d := if st && !t.dirtyStall then d.raise h pgTIER .dirtyStall else d
  let d := d.upd h fun x => { x with tier := { x.tier with dirtyHigh := hi, dirtyStall := st } }
  d.setArm h (d.half h).sail.lfReady (decide (n ≤ d.budget h))

/-- Change a Manifest entry and list its block as changed (R102, R103). -/
def Dev.setTile (d : Dev) (h : Half) (t : Nat) (e : ManfEntry) : Dev :=
  let d := d.upd h fun x => { x with tier := { x.tier with
    manf := smPut x.tier.manf t {} e
    changed := if x.tier.changed.contains (t / 4096) then x.tier.changed else x.tier.changed ++ [t / 4096] } }
  d.dirtyNote h

/-- Set AGE to the age clock: an access (R101). -/
def Dev.touchAge (d : Dev) (h : Half) (t : Nat) : Dev :=
  d.upd h fun x =>
    if (smGetD x.tier.manf t {}).state = .blank then x
    else { x with tier := { x.tier with manf := smPut x.tier.manf t {} { smGetD x.tier.manf t {} with age := x.tier.ageClock } } }

/-- The tile's lines are in its frame. -/
def TileStateResident (s : TileState) : Bool := s == .dramClean || s == .dramDirty || s == .sinking

/-- Tiles of a half under a phase of a slot: `KEYS.USERS` (R280). -/
def Dev.users (d : Dev) (h : Half) (slot : Nat) (ph : Bool) : Nat :=
  ((d.half h).tier.manf.filter fun e => e.2.slot.toNat == slot && e.2.phase == ph && e.2.state != .blank).length

/-- A tile's last write as a full sailing (R36). -/
def Dev.lastSailing (d : Dev) (h : Half) (e : ManfEntry) : Nat := resolve 28 (d.half h).sail.current e.lastSailing.toNat

/-! ### Keys of lines and tiles -/

/-- A key slot of a half. -/
def Dev.kslot (d : Dev) (h : Half) (s : Nat) : KeySlot := smGetD (d.half h).ciph.slots s {}

/-- Change a key slot of a half. -/
def Dev.updSlot (d : Dev) (h : Half) (s : Nat) (f : KeySlot → KeySlot) : Dev :=
  d.upd h fun x => { x with ciph := { x.ciph with slots := smPut x.ciph.slots s {} (f (smGetD x.ciph.slots s {})) } }

/-- A slot whose keys serve requests (R254, R270). -/
def KeySlot.serves (k : KeySlot) (ph : Bool) : Bool :=
  (k.state == .active || k.state == .sweeping) && (if ph then k.loadedB else k.loadedA)

/-- The XTS pair of a phase. -/
def KeySlot.pair (k : KeySlot) (ph : Bool) : BitVec 256 × BitVec 256 := if ph then (k.k1b, k.k2b) else (k.k1a, k.k2a)

/-- Encrypt or decrypt a line under its tag words' slot and phase; none where the key is absent (R261, R262). -/
def Dev.lineCrypt (d : Dev) (h : Half) (enc : Bool) (line : Nat) (t : Tags) (x : LineData) : Option LineData :=
  let k := d.kslot h t.slot.toNat
  if k.serves t.phase then
    some (lineXts enc (k.pair t.phase).1 (k.pair t.phase).2 k.gen t.phase line x)
  else none

/-! ### Stored lines -/

/-- The formatter's line j of a frame (R97). -/
def fmtLine (f j : Nat) : SLine := encodeLine (fmtAddr f j) 0 {}

/-- A stored line of a frame. -/
def Dev.frameLine (d : Dev) (h : Half) (f j : Nat) : SLine := (smGet (d.half h).tier.dram (f * 1024 + j)).getD (fmtLine f j)

/-- An access wakes a subchannel from self-refresh (R166), and its island where that is gated (R17). -/
def Dev.subWake (d : Dev) (h : Half) (k : Nat) : Dev :=
  if (d.sub h k).state = .selfRefresh then
    (d.wake h (4 + k / 4)).updSub h k fun s => { s with state := .up }
  else d

/-- An island's standing condition of R301: a port whose LINK_EN is 0, a DDR island without a live subchannel, a flash
island without a live channel, the Ferry island with EN = 0. -/
def Dev.gateCond (d : Dev) (h : Half) (i : Nat) : Bool :=
  if i < 4 then d.fld h (pgHPT i) 0x040 6 6 == 0
  else if i < 10 then (List.range 4).all fun k => [SubState.absent, .failed, .disabled].contains (d.sub h ((i - 4) * 4 + k)).state
  else if i < 14 then ((d.half h).flash.isles.getD (i - 10) {}).chans.all fun c => c == 0 || c == 3
  else i == 14 && d.fld h pgFERY 0x040 0 0 == 0

/-- An idle DDR island stays gated while its subchannels are in self-refresh (R301). -/
def Dev.idleGate (d : Dev) (h : Half) (i : Nat) : Bool :=
  decide (4 ≤ i) && decide (i < 10) && (d.half h).pwr.gated.getLsbD i
    && (List.range 4).all fun k => [SubState.absent, .failed, .disabled, .selfRefresh].contains (d.sub h ((i - 4) * 4 + k)).state

/-- Gate and wake islands as R301 sets out. -/
def Dev.gateNote (d : Dev) (h : Half) : Dev :=
  d.setGates h ((List.range 15).foldl (fun g i =>
    if !((d.half h).pwr.failed.getLsbD i) && (d.gateCond h i || d.idleGate h i) then g ||| BitVec.twoPow 22 i else g) 0)

/-- Store a line in a frame. -/
def Dev.putFrameLine (d : Dev) (h : Half) (f j : Nat) (l : SLine) : Dev :=
  (d.subWake h (frameSub f)).upd h fun x => { x with tier := { x.tier with dram := smPut x.tier.dram (f * 1024 + j) (fmtLine f j) l } }

/-- Decode a frame line over the DPA line the access names (R134). -/
def decodeFrame (f j line : Nat) (l : SLine) : LineRes := decodeLine line true (some ({}, fmtAddr f j)) l

/-- A poisoned line that keeps the tag words: POISON set, zero data, W as it stands (R142). -/
def poisonLine (line : Nat) (t : Tags) : SLine := encodeLine line 0 { t with tb := t.tb ||| BitVec.twoPow 18 4 }

/-! ### The Landing cache's directory -/

/-- Set index and address tag of a line (R179). -/
def landSet (line : Nat) : Nat := (line % 2 ^ 17) ^^^ (line / 2 ^ 17 % 2 ^ 17)
def landTag (line : Nat) : Nat := line / 2 ^ 17 % 2 ^ 28

/-- The line a slot of a half holds (R179). -/
def landLine (h : Half) (key tag : Nat) : Nat := h.num * 2 ^ 45 + tag * 2 ^ 17 + ((key / 16) ^^^ (tag % 2 ^ 17))

/-- The slot that holds a line. -/
def Dev.landFind (d : Dev) (h : Half) (line : Nat) : Option (Nat × LandEntry) :=
  let s := landSet line
  (d.half h).land.slots.find? fun e => e.1 / 16 == s && e.2.tag == landTag line

/-- Put a line in a slot, or empty it. -/
def Dev.landPut (d : Dev) (h : Half) (key : Nat) (e : LandEntry) : Dev :=
  d.upd h fun x => { x with land := { x.land with slots := smSet x.land.slots key e } }
def Dev.landDrop (d : Dev) (h : Half) (key : Nat) : Dev :=
  d.upd h fun x => { x with land := { x.land with slots := smDel x.land.slots key } }

/-- Slots that hold lines of a tile. -/
def Dev.landOfTile (d : Dev) (h : Half) (t : Nat) : List (Nat × LandEntry) :=
  (d.half h).land.slots.filter fun e => lineTile (landLine h e.1 e.2.tag) == t

/-- Invalidate a tile's lines without write-back, and cancel its buffered write-backs (R181, R185). -/
def Dev.landDropTile (d : Dev) (h : Half) (t : Nat) : Dev :=
  d.upd h fun x => { x with land := { x.land with
    slots := x.land.slots.filter fun e => lineTile (landLine h e.1 e.2.tag) != t
    buf := x.land.buf.filter fun b => lineTile b.line != t } }

/-- Ways enabled and locked (R192). -/
def Dev.waysEn (d : Dev) (h : Half) : Nat := d.fld h pgLAND 0x048 15 0

/-- The replacement LFSR's next value (R183). -/
def lfsrNext (l : BitVec 24) : BitVec 24 :=
  (l <<< 1) ||| BitVec.ofNat 24 (bnum (l.getLsbD 23 ^^ l.getLsbD 22 ^^ l.getLsbD 21 ^^ l.getLsbD 16))

/-- Choose a way of a set (R183): `el` the eligible ways, `va` the valid ones. -/
def chooseWay (l : BitVec 24) (el va : List Nat) : Option (Nat × BitVec 24) :=
  if el.isEmpty then none
  else
    let l := lfsrNext l
    match el.find? fun w => !(va.contains w) with
    | some w => some (w, l)
    | none =>
      let w0 := l.toNat % 16
      (((List.range 16).map fun i => (w0 + i) % 16).find? fun w => el.contains w).map fun w => (w, l)

/-- Ways eligible for an allocation in a set (R183). -/
def Dev.eligible (d : Dev) (h : Half) (set : Nat) : List Nat :=
  let x := d.half h
  (List.range 16).filter fun w =>
    (d.waysEn h).testBit w && !(x.land.locked.getLsbD w) &&
      match smGet x.land.slots (set * 16 + w) with
      | none => true
      | some e =>
        let line := landLine h (set * 16 + w) e.tag
        !(e.dirty && (d.tile h (lineTile line)).state == .dark) && !(x.ecc.repairs.any fun r => r.landing && r.line == line)

/-- Issue the oldest DRAM write of the eviction buffer and free its entry (R185); the lines of a DARK tile wait for its
new frame. -/
def Dev.bufIssue (d : Dev) (h : Half) : Dev :=
  match (d.half h).land.buf.find? fun b => (d.tile h (lineTile b.line)).state != .dark && !(d.subHeld h (frameSub b.frame)) with
  | none => d
  | some b =>
    let d := d.upd h fun x => { x with land := { x.land with buf := x.land.buf.erase b } }
    ((d.putFrameLine h b.frame (lineJ b.line) b.cipher).wrap64 h (pgMEMC (frameSub b.frame / 2)) 0x080)

/-- Issue every buffered write of a tile. -/
def Dev.bufIssueTile (d : Dev) (h : Half) (t : Nat) : Dev :=
  let go := (d.half h).land.buf.filter fun b => lineTile b.line == t
  let d := d.upd h fun x => { x with land := { x.land with buf := x.land.buf.filter fun b => lineTile b.line != t } }
  go.foldl (fun d b => (d.putFrameLine h b.frame (lineJ b.line) b.cipher).wrap64 h (pgMEMC (frameSub b.frame / 2)) 0x080) d

/-- The tag words of a decoded line can be trusted. -/
def LineRes.tagsOk (r : LineRes) : Bool := !((r.cws.drop 4).contains .bad)

/-- The tag words of a poisoned line: as decoded, or built from the Manifest entry when they are uncorrectable
(R142). -/
def poisonTags (r : LineRes) (e : ManfEntry) : Tags :=
  if r.tagsOk then { r.tags with tb := (r.tags.tb &&& 0x0FFFF#18) ||| 0x00010#18 }
  else mkTags (e.lastSailing.setWidth 18) 0 e.slot e.phase true r.tags.w false e.ld

/-- The ciphertext of a Landing line for its frame: decoded, encrypted under its tag words, with fresh data checks
(R125, R184). Poisoned where no key serves it (R262), and where it is uncorrectable and its repair has not ended (R143). -/
def Dev.landCipher (d : Dev) (h : Half) (line : Nat) (l : SLine) : SLine :=
  let r := decodeLine line false none l
  match r.verdict with
  | .bad _ => encodeLine line 0 (poisonTags r (d.tile h (lineTile line)))
  | _ => match d.lineCrypt h true line r.tags r.data with
    | some c => encodeLine line c r.tags
    | none => poisonLine line r.tags

/-- Write a dirty Landing line back to its frame at once, leaving it clean (R184). One under repair leaves its poisoned
form there and stays dirty (R143, R189). -/
def Dev.landClean (d : Dev) (h : Half) (key : Nat) (e : LandEntry) : Dev :=
  if !e.dirty then d
  else
    let line := landLine h key e.tag
    let f := (d.tile h (lineTile line)).frame.toNat
    let d := d.putFrameLine h f (lineJ line) (d.landCipher h line e.line)
    let d := (d.wrap64 h (pgMEMC (frameSub f / 2)) 0x080).wrap64 h pgLAND 0x0D0
    match (decodeLine line false none e.line).verdict with
    | .bad _ => d
    | _ => d.landPut h key { e with dirty := false, wbPending := false }

/-- Write back a tile's dirty Landing lines, leaving them clean; buffered ones issue first (R185, sink step 1). -/
def Dev.landCleanTile (d : Dev) (h : Half) (t : Nat) : Dev :=
  let d := d.bufIssueTile h t
  (d.landOfTile h t).foldl (fun d e => d.landClean h e.1 e.2) d

end Sys2Proof.Machine
end

