-- ==== Sys2Proof/Machine/EccBase.lean ====
section
/-! DEFINITION. What every decode shares (chapter 05): CXL event records (R78), the poison list (R79), the scoresheet
(R144 to R147), the repeat filter (R139), Tally (R138), Heal (R137), recalls (R219) and the repair of uncorrectable
lines (R142, R143). -/

namespace Sys2Proof.Machine

/-! ### CXL event records (R78) -/

/-- The contexts whose LD holds capacity at a line. -/
def Dev.ldsAt (d : Dev) (line : Nat) : List (Half × Nat) :=
  d.halves.flatMap fun h => ((d.ctxs h).filter fun c => (d.extents h c).any fun e =>
    decide (e.dpa ≤ line / 2 ^ 20) && decide (line / 2 ^ 20 < e.dpa + e.len)).map fun c => (h, c)

/-- Every enabled LD. -/
def Dev.allLds (d : Dev) : List (Half × Nat) := d.halves.flatMap fun h => (d.ctxs h).map fun c => (h, c)

/-- The four event logs of CXL 3.1. -/
inductive LogSel where
  | info | warn | fail | fatal | dc
  deriving DecidableEq, Repr

/-- One log of an LD, and its replacement. -/
def LdCtx.log (x : LdCtx) : LogSel → EventLog
  | .info => x.logInfo | .warn => x.logWarn | .fail => x.logFail | .fatal => x.logFatal | .dc => x.logDc
def LdCtx.setLog (x : LdCtx) (l : EventLog) : LogSel → LdCtx
  | .info => { x with logInfo := l } | .warn => { x with logWarn := l } | .fail => { x with logFail := l }
  | .fatal => { x with logFatal := l } | .dc => { x with logDc := l }

/-- The log a record kind goes to (DEDUCED, notes/assumptions/19.md). -/
def logOf : CxlEventKind → LogSel
  | .generalMedia => .fail | .dram => .warn | .memoryModule => .info | .dynamicCapacity => .dc | .vendor => .info

/-- Add a record to one LD's log of 64 records; a full log counts an overflow (R78). `LOG_NEW` latches an added one. -/
def Dev.logEvent (d : Dev) (h : Half) (c : Nat) (k : CxlEventKind) (addr info : Nat) : Dev :=
  let l := (d.ldc h c).log (logOf k)
  if 64 ≤ l.records.length then
    d.updLd h c fun x => x.setLog { l with
      overflow := min (l.overflow + 1) 0xFFFF
      firstOverflow := if l.overflow = 0 then d.time else l.firstOverflow
      lastOverflow := d.time } (logOf k)
  else
    let d := d.updLd h c fun x => { x.setLog { l with
      records := l.records ++ [{ kind := k, addr := addr, info := info, time := d.time, handle := x.nextHandle }] } (logOf k) with
      nextHandle := if x.nextHandle ≥ 0xFFFF then 1 else x.nextHandle + 1 }
    d.evLatch h c 10

/-- A record for every LD whose capacity contains the address it names (R78). -/
def Dev.eventAt (d : Dev) (k : CxlEventKind) (line info : Nat) : Dev :=
  (d.ldsAt line).foldl (fun d e => d.logEvent e.1 e.2 k line info) d

/-- A Memory Module record for every enabled LD: a health value has changed (R78, R80). -/
def Dev.healthEvent (d : Dev) (info : Nat) : Dev :=
  d.allLds.foldl (fun d e => d.logEvent e.1 e.2 .memoryModule 0 info) d

/-! ### The poison list (R79) -/

/-- List a poisoned line with its source; a full list sets the overflow flag of the LDs it concerns (R79). -/
def Dev.poisonList (d : Dev) (h : Half) (line src : Nat) : Dev :=
  let l := (d.half h).ecc.poison
  if l.any fun e => e.1 == line then d
  else if l.length < 2048 then d.upd h fun x => { x with ecc := { x.ecc with poison := x.ecc.poison ++ [(line, src)] } }
  else
    (d.ldsAt line).foldl (fun d e => d.updLd e.1 e.2 fun x =>
      if x.poisonOverflow then x else { x with poisonOverflow := true, poisonOverflowTime := d.time }) d

/-- A line is no longer poisoned. -/
def Dev.poisonDrop (d : Dev) (h : Half) (line : Nat) : Dev :=
  d.upd h fun x => { x with ecc := { x.ecc with poison := x.ecc.poison.filter fun e => e.1 != line } }

/-- R142 step 3 for one line: the General Media event and the poison list. -/
def Dev.poisoned (d : Dev) (h : Half) (line : Nat) : Dev := (d.poisonList h line 1).eventAt .generalMedia line 1

/-! ### The scoresheet (R144 to R147) -/

/-- Codes of `CLASS` (R144). -/
def clsHeal : Nat := 1
def clsTally : Nat := 2
def clsHard : Nat := 3
def clsUe : Nat := 4
def clsRepaired : Nat := 5
def clsPoison : Nat := 6

/-- LOCATION of line j of a frame (R145). -/
def Dev.frameLoc (d : Dev) (h : Half) (f j : Nat) : Nat :=
  let k := frameSub f
  let n := d.ranks h (k / 2)
  let l := frameLocal f
  k * 2 ^ 59 + l / 32 % n * 2 ^ 55 + l % 32 * 2 ^ 50 + (8 * (l / (32 * n)) + j / 128) * 2 ^ 32 + j % 128 * 2 ^ 25

/-- Unacknowledged HARD entries. -/
def Dev.hardOpen (d : Dev) (h : Half) : Nat := ((d.half h).ecc.sheet.filter fun e => e.cls == clsHard && !e.ack).length

/-- Replace a scoresheet entry, which becomes the newest. A change of the maintenance-needed status is a Memory
Module event (R80). -/
def Dev.scorPut (d : Dev) (h : Half) (i : Nat) (e : ScorEntry) : Dev :=
  let was := decide (0 < d.hardOpen h)
  let d := d.upd h fun x => { x with ecc := { x.ecc with sheet := x.ecc.sheet.set i e, newest := i } }
  if was != decide (0 < d.hardOpen h) then d.healthEvent 1 else d

/-- The slot a new entry takes: an empty one, else the earliest LAST among those that are not unacknowledged HARD
(R146). -/
def scorSlot (sheet : List ScorEntry) : Option Nat :=
  match sheet.findIdx? fun e => e.cls == 0 with
  | some i => some i
  | none =>
    ((sheet.zipIdx).foldl (fun best e =>
      if e.1.cls == clsHard && !e.1.ack then best
      else match best with
        | none => some e
        | some b => if e.1.last < b.1.last then some e else some b) none).map (·.2)

/-- Create an entry; when every entry is an unacknowledged HARD one the event is dropped (R146). -/
def Dev.scorNew (d : Dev) (h : Half) (e : ScorEntry) : Option Nat × Dev :=
  match scorSlot (d.half h).ecc.sheet with
  | some i => (some i, d.scorPut h i { e with last := d.time, first := d.time, count := max 1 e.count })
  | none => (none, (d.sat h pgSCOR 0x098).raise h pgSCOR .scorFull)

/-- A repeat of a word inside its window, or its first correction (R139). The answer is whether it is now HARD. -/
def filterNote (fs : List Filter) (u l cw sy now win : Nat) : Bool × List Filter :=
  let fs := fs.filter fun f => decide (now < f.created + win)
  match fs.find? fun f => f.unit == u && f.location == l && f.codeword == cw && f.syndrome == sy with
  | some f =>
    (f.repeats + 1 == 3, fs.map fun g => if g = f then { g with repeats := g.repeats + 1 } else g)
  | none =>
    let fs := if fs.length < 4096 then fs else fs.tail
    (false, fs ++ [{ unit := u, location := l, codeword := cw, syndrome := sy, created := now }])

/-- `SCOR.REPEAT_WIN` in ns. -/
def Dev.repeatNs (d : Dev) (h : Half) : Nat := d.fld h pgSCOR 0x04C 13 0 * 60000000000

/-- A correction of one codeword under Heal or Tally: counters, filter, scoresheet, `HARD_FAULT` and its DRAM record
(R137 to R139, R146, R147). `line` names the DPA line where there is one. -/
def Dev.corrected (d : Dev) (h : Half) (heal : Bool) (u l cw sy : Nat) (ld line : Option Nat) : Dev :=
  let d := d.wrap64 h pgSCOR (if heal then 0x080 else 0x088)
  let r := if heal then filterNote (d.half h).ecc.filter u l cw sy d.uptime (d.repeatNs h) else (false, (d.half h).ecc.filter)
  let d := d.upd h fun x => { x with ecc := { x.ecc with filter := r.2 } }
  let d := match ld.bind d.findLd with
    | some (k, c) => d.updLd k c fun x => { x with corrected := min (x.corrected + 1) 0xFFFFFFFF }
    | none => d
  let hit := (d.half h).ecc.sheet.zipIdx.find? fun e =>
    (e.1.cls == clsHeal || e.1.cls == clsTally || e.1.cls == clsHard) && e.1.unit == u && e.1.location == l
      && e.1.codeword == cw && e.1.syndrome == sy
  let p : Option Nat × Dev := match hit with
    | some (e, i) => (some i, d.scorPut h i { e with
        count := min (e.count + 1) 0xFFFF, last := d.time, cls := if r.1 then clsHard else e.cls })
    | none => d.scorNew h {
        location := l, unit := u, codeword := cw, syndrome := sy, ldValid := ld.isSome, ld := ld.getD 0
        cls := if r.1 then clsHard else if heal then clsHeal else clsTally }
  if r.1 then
    let d := match p.1 with
      | some i => p.2.raise h pgSCOR .hardFault i
      | none => p.2
    match line with
    | some n => d.eventAt .dram n l
    | none => d
  else p.2

/-- A new UE entry with `UE_FOUND` (R146, R147). -/
def Dev.ueFound (d : Dev) (h : Half) (u l cw sy cause : Nat) (ld : Option Nat) : Option Nat × Dev :=
  let d := d.wrap64 h pgSCOR 0x090
  let p := d.scorNew h { location := l, unit := u, codeword := cw, syndrome := sy, cause := cause, cls := clsUe
                         ldValid := ld.isSome, ld := ld.getD 0 }
  match p.1 with
  | some i => (some i, p.2.raise h pgSCOR .ueFound i)
  | none => p

/-- End a UE entry as UE_REPAIRED with its REPAIR code, or as POISON (R142, R146). -/
def Dev.ueEnd (d : Dev) (h : Half) (i : Option Nat) (rep : Option Nat) : Dev :=
  match i with
  | none => d
  | some i =>
    match (d.half h).ecc.sheet[i]? with
    | none => d
    | some e =>
      if e.cls != clsUe then d
      else match rep with
        | some k => (d.scorPut h i { e with cls := clsRepaired, repair := k, last := d.time }).raise h pgSCOR .ueRepaired i
        | none => (d.scorPut h i { e with cls := clsPoison, last := d.time }).raise h pgSCOR .linePoisoned i

/-- The one POISON entry of a tile whose lines were poisoned without a decode (R146). -/
def Dev.tilePoisoned (d : Dev) (h : Half) (t n : Nat) (ld : Nat) : Dev :=
  let p := d.scorNew h { location := tileNo h t, unit := 10, cause := 3, cls := clsPoison, ldValid := true, ld := ld, count := n }
  match p.1 with
  | some i => p.2.raise h pgSCOR .linePoisoned i
  | none => p.2

/-! ### Tally (R138) -/

/-- What a Tally correction asks of the unit. -/
inductive TallyAct where
  | nothing | refetch | faulty
  deriving DecidableEq, Repr

/-- A Tally correction in a row of a unit: the 16th refetches the row, and 16 again within the window mark it
faulty (R138). -/
def Dev.tally (d : Dev) (h : Half) (u row sy : Nat) (line : Option Nat) : TallyAct × Dev :=
  let d := d.corrected h false u row 0 sy none line
  let rows := (d.half h).ecc.tally
  let r : TallyRow := (rows.find? fun x => x.unit == u && x.row == row).getD { unit := u, row := row, count := 0, since := 0 }
  let again := r.again && decide (d.uptime < r.since + d.repeatNs h)
  let full := decide (16 ≤ r.count + 1)
  let r' : TallyRow :=
    if full && again then { r with count := 0, faulty := true }
    else if full then { r with count := 0, since := d.uptime, again := true }
    else { r with count := r.count + 1, again := again }
  let d := d.upd h fun x => { x with ecc := { x.ecc with
    tally := r' :: x.ecc.tally.filter fun y => !(y.unit == u && y.row == row) } }
  if full && again then (.faulty, d.raise h pgSCOR .sramRowFaulty)
  else if full then (.refetch, d.raise h pgSCOR .tallyRefetch)
  else (.nothing, d)

/-- A Tally row read with `n` bits in error: corrected, or reloaded at once from its backing copy (R138). -/
def Dev.tallyRead (d : Dev) (h : Half) (u row sy : Nat) (bad : Bool) : Dev :=
  if bad then
    let p := d.ueFound h u row 0 sy 0 none
    p.2.ueEnd h p.1 (some 0)
  else (d.tally h u row sy none).2

/-- Syndrome of an inverted bit of a data codeword. -/
def bitSyn (b : Nat) : Nat := if b < 128 then (dataCol b).toNat else 2 ^ (b - 128)

/-- What an armed `SRAM_INJ` does to the next read of a Tally unit: `sel` is its code in the register, `u` its unit number
(R149). -/
def Dev.injTally (d : Dev) (h : Half) (sel u row : Nat) : Dev :=
  if (d.half h).ecc.injArmed && d.fld h pgECCD 0x120 27 24 == sel then
    let b := d.fld h pgECCD 0x120 15 8
    let two := d.fld h pgECCD 0x120 16 16 == 1
    let sy := bitSyn b ^^^ (if two then bitSyn (b + 1) else 0)
    (d.upd h fun x => { x with ecc := { x.ecc with injArmed := false } }).tallyRead h u row sy two
  else d

/-- Rows of a unit marked faulty. -/
def Dev.faultyRows (d : Dev) (h : Half) (u : Nat) : Nat := ((d.half h).ecc.tally.filter fun r => r.unit == u && r.faulty).length

/-- The Manifest cache set is disabled (R136). -/
def Dev.mcDisabled (d : Dev) (h : Half) (set : Nat) : Bool :=
  (d.half h).ecc.tally.any fun r => r.unit == 7 && r.row == set && r.faulty

/-! ### Decoding, and what a verdict asks -/

/-- The codewords of a decoded line that a correction touched, with their syndromes. -/
def LineRes.fixes (r : LineRes) : List (Nat × Nat) :=
  ((r.cws.zip r.synds).zipIdx).filterMap fun e => if e.1.1 = .corrected then some (e.2, e.1.2) else none

/-- CODEWORD and SYNDROME of an uncorrectable line (R144). -/
def LineRes.ueWord (r : LineRes) : Nat × Nat :=
  match r.verdict with
  | .bad 1 => (7, r.crcDiff.toNat % 512)
  | .bad 2 => (5, r.synds.getD 5 0)
  | _ => (((r.cws.zip r.synds).zipIdx).findSome? fun e => if e.1.1 = .bad then some (e.2, e.1.2) else none).getD (0, 0)

/-- CAUSE of an uncorrectable line. -/
def LineRes.cause (r : LineRes) : Nat := match r.verdict with
  | .bad c => c
  | _ => 0

/-- Queue a conditional Heal write-back (R137). -/
def Dev.healPut (d : Dev) (h : Half) (place : Nat) (landing : Bool) (was now : SLine) : Dev :=
  d.upd h fun x => { x with ecc := { x.ecc with
    heals := x.ecc.heals ++ [{ place := place, landing := landing, was := was, now := now }] } }

/-- Log the corrections of a decoded line, one event per codeword. -/
def Dev.fixesNote (d : Dev) (h : Half) (u l : Nat) (ld : Nat) (line : Option Nat) (r : LineRes) : Dev :=
  r.fixes.foldl (fun d e => d.corrected h true u l e.1 e.2 (some ld) line) d

/-! ### Recalls (R219) -/

/-- The twin is paired: the session's MODE is not NONE (R210). -/
def Dev.twinPaired (d : Dev) (h : Half) : Bool := (d.half h).fery.eff.mode != 0

/-- LAST_SAILING has been sealed with twin acknowledgement: at or before `SAIL.MIRRORED`, modulo 2^28 (R142). -/
def Dev.mirroredOk (d : Dev) (h : Half) (last : BitVec 28) : Bool :=
  decide (((BitVec.ofNat 28 (d.half h).sail.mirrored) - last).toNat < 2 ^ 27)

/-- Step 2 of R142 is possible: a twin is paired, and not both solo and unmirrored. -/
def Dev.recallCan (d : Dev) (h : Half) (last : BitVec 28) : Bool :=
  d.twinPaired h && !(d.solo && !(d.mirroredOk h last))

/-- A recall can be sent: a session, and 256 slots, of which re-homing holds at most 128 (R219, R330). -/
def recallFits (f : FeryHalf) (q : Recall) : Bool :=
  f.link == .session && decide (f.recalls.length < 256)
    && (q.why != .rehome || decide ((f.recalls.filter fun x => x.why == .rehome).length < 128))

/-- Send waiting recalls while slots are free, oldest first. -/
def Dev.recallPump (h : Half) : List Recall → Dev → Dev
  | [], d => d
  | q :: qs, d =>
    let f := (d.half h).fery
    if f.recallWait.contains q && recallFits f q then
      Dev.recallPump h qs ((d.upd h fun x => { x with fery := { x.fery with
        recallWait := x.fery.recallWait.erase q, recalls := x.fery.recalls ++ [q] } }).feryCtl h (.recallReq q.line q.rtag q.want))
    else Dev.recallPump h qs d

/-- Ask the twin for a line; a recall beyond the slots waits (R219). -/
def Dev.recall (d : Dev) (h : Half) (line want : Nat) (why : RecallWhy) : Dev :=
  let q : Recall := { rtag := (d.half h).fery.nextRtag % 2 ^ 16, line := line, want := want, why := why }
  let d := d.upd h fun x => { x with fery := { x.fery with
    nextRtag := (x.fery.nextRtag + 1) % 2 ^ 16, recallWait := x.fery.recallWait ++ [q] } }
  Dev.recallPump h [q] d

/-! ### Repairs (R142, R143, R189) -/

/-- End a line's repair: its held requests go back to the tile's queue ahead of later ones. -/
def Dev.repairDrop (d : Dev) (h : Half) (line : Nat) : Dev :=
  d.upd h fun x => { x with
    ecc := { x.ecc with repairs := x.ecc.repairs.filter fun r => r.line != line }
    tier := { x.tier with held := ((x.ecc.repairs.filter fun r => r.line == line).flatMap (·.held)) ++ x.tier.held } }

/-- The repair of a line, if one runs. -/
def Dev.repairOf (d : Dev) (h : Half) (line : Nat) : Option Repair := (d.half h).ecc.repairs.find? fun r => r.line == line

/-- End a repair with its scoresheet entry (R142, R143). -/
def Dev.repairEnd (d : Dev) (h : Half) (line : Nat) (rep : Option Nat) : Dev :=
  match d.repairOf h line with
  | none => d
  | some r => (d.ueEnd h r.entry rep).repairDrop h line

/-- R142 step 3, and the end of R189 where no recall is possible: the line stays poisoned. A dirty Landing line is
written to its frame poisoned and its slot invalidated. -/
def Dev.repairFail (d : Dev) (h : Half) (r : Repair) : Dev :=
  let d := if r.landing then
      match d.landFind h r.line with
      | some (k, e) =>
        let m := d.tile h (lineTile r.line)
        let p := encodeLine r.line 0 (poisonTags (decodeLine r.line false none e.line) m)
        (d.putFrameLine h m.frame.toNat (lineJ r.line) p).landDrop h k
      | none => d
    else d
  ((d.ueEnd h r.entry none).poisoned h r.line).repairDrop h r.line

/-- R142 step 2, once step 1 is past: the seal-wait, or the recall at once, or step 3. -/
def Dev.repairStep2 (d : Dev) (h : Half) (r : Repair) : Dev :=
  let last := (d.tile h (lineTile r.line)).lastSailing
  let put (s : RepairStage) (d : Dev) := d.upd h fun x => { x with ecc := { x.ecc with
    repairs := x.ecc.repairs.map fun q => if q.line = r.line then { q with stage := s } else q } }
  if !(d.recallCan h last) then d.repairFail h r
  else if d.mirroredOk h last then (put .recall d).recall h r.line last.toNat (if r.landing then .landing else .repair)
  else put .sealWait d

/-- The tile lies in the half's mirrored range: the twin's copy of a peer's tile (R210). -/
def Dev.mirroredHere (d : Dev) (h : Half) (t : Nat) : Bool :=
  let e := (d.half h).fery.eff
  if e.mode = 2 then true
  else if e.mode = 3 then decide (e.boundary * 4096 ≤ t)
  else if e.mode = 4 then decide (t < e.boundary * 4096)
  else false

/-- Begin the repair of an uncorrectable frame line: write it poisoned, then R142 from step 1. `rq` is held. A mirrored
line on a twin is asked back as a tile stream instead (R220). -/
def Dev.repairStart (d : Dev) (h : Half) (line f : Nat) (res : LineRes) (rq : List Req) : Dev :=
  let e := d.tile h (lineTile line)
  let w := res.ueWord
  let p := d.ueFound h 0 (d.frameLoc h f (lineJ line)) w.1 w.2 res.cause
    (some (if res.tagsOk then res.tags.ld.toNat else e.ld.toNat))
  let d := p.2.putFrameLine h f (lineJ line) (encodeLine line 0 (poisonTags res e))
  let r : Repair := { line := line, stage := .nand, entry := p.1, held := rq }
  let d := d.upd h fun x => { x with ecc := { x.ecc with repairs := x.ecc.repairs ++ [r] } }
  if d.mirroredHere h (lineTile line) && d.twinPaired h then
    (d.repairFail h r).feryCtl h (.pull (tileNo h (lineTile line)))
  else if e.state = .dramClean then d
  else d.repairStep2 h r

/-- Re-evaluate the repairs that wait for a seal, at a change to solo or Split (R143). -/
def Dev.repairReview (d : Dev) : Dev :=
  d.eachHalf fun d h => ((d.half h).ecc.repairs.filter fun r => r.stage == .sealWait).foldl (fun d r =>
    if d.recallCan h (d.tile h (lineTile r.line)).lastSailing then d else d.repairFail h r) d

/-! ### Ways (R188) -/

/-- State of an enabled cache: NO_WAYS while no way is eligible (R186). -/
def Dev.landNote (d : Dev) (h : Half) : Dev :=
  let none := d.waysEn h - (d.waysEn h &&& (d.half h).land.locked.toNat) = 0
  match (d.half h).land.state with
  | .enabled =>
    if none then (d.upd h fun x => { x with land := { x.land with state := .noWays } }).raise h pgLAND .noWays else d
  | .noWays => if none then d else d.upd h fun x => { x with land := { x.land with state := .enabled } }
  | _ => d

/-- Begin to disable a way (R188 step 1): EN and LOCKED clear; a running `PRELOAD` into it stops as REFUSED (R191).
`fresh` journals the hardware change; a commit has already cleared EN. -/
def Dev.wayDisable (d : Dev) (h : Half) (w : Nat) (fresh : Bool) : Dev :=
  if (d.half h).land.disabling.contains w then d
  else
    let en := (d.reg h pgLAND 0x048).toNat
    let d := if fresh && en.testBit w then d.hwChange (pageIsland pgLAND) h pgLAND 0x048 (en - 2 ^ w) else d
    let stop := ((d.half h).land.preload.map (·.way)) == some w
    let d := d.upd h fun x => { x with land := { x.land with
      locked := x.land.locked &&& ~~~(BitVec.twoPow 16 w)
      disabling := x.land.disabling ++ [w]
      preload := if stop then none else x.land.preload } }
    let d := if stop then (d.setFld h pgLAND 0x060 31 28 5).raise h pgLAND .landCmdDone else d
    d.landNote h

/-- Add to a way's tally, and disable the way when it exceeds the threshold (R188). -/
def Dev.wayTally (d : Dev) (h : Half) (w n : Nat) : Dev :=
  let off := 0x080 + 4 * w
  let start := smGet (d.half h).land.tallyStart w
  let old := match start with
    | some s => if s + d.repeatNs h ≤ d.uptime then 0 else (d.reg h pgLAND off).toNat
    | none => 0
  let d := if old = 0 then d.upd h fun x => { x with land := { x.land with tallyStart := smSet x.land.tallyStart w d.uptime } } else d
  let d := d.setReg h pgLAND off (min (old + n) 0xFFFF)
  if d.fld h pgLAND 0x04C 15 0 < old + n && (d.waysEn h).testBit w then d.wayDisable h w true else d

/-- A repair of an uncorrectable Landing line (R189): a clean line's slot is invalidated; a dirty one is kept and
recalled, or written to its frame poisoned. -/
def Dev.landBad (d : Dev) (h : Half) (key : Nat) (e : LandEntry) (res : LineRes) : Dev :=
  let line := landLine h key e.tag
  let w := res.ueWord
  let m := d.tile h (lineTile line)
  let p := d.ueFound h 4 key w.1 w.2 res.cause (some (if res.tagsOk then res.tags.ld.toNat else m.ld.toNat))
  let d := p.2.wayTally h (key % 16) 4
  if !e.dirty then (d.landDrop h key).ueEnd h p.1 (some 3)
  else if (d.repairOf h line).isSome then d
  else
    let r : Repair := { line := line, stage := .sealWait, entry := p.1, landing := true }
    (d.upd h fun x => { x with ecc := { x.ecc with repairs := x.ecc.repairs ++ [r] } }).repairStep2 h r

/-- What an armed `SRAM_INJ` of a unit does to the next line read there (R149): BIT, and BIT + 1 with DOUBLE, of the
first word inverted; ARM clears. -/
def Dev.inject (d : Dev) (h : Half) (u : Nat) (l : SLine) : SLine × Dev :=
  if (d.half h).ecc.injArmed && d.fld h pgECCD 0x120 27 24 == u then
    let b := d.fld h pgECCD 0x120 15 8
    let flip (k : Nat) (l : SLine) : SLine :=
      if k < 128 then { l with data := l.data ^^^ BitVec.twoPow 512 k }
      else { l with side := l.side ^^^ BitVec.twoPow 128 (k - 128) }
    let l := flip b l
    let l := if d.fld h pgECCD 0x120 16 16 = 1 then flip (b + 1) l else l
    (l, d.upd h fun x => { x with ecc := { x.ecc with injArmed := false } })
  else (l, d)

/-- Read a Landing slot: decode, log and heal a correction. -/
def Dev.landRead (d : Dev) (h : Half) (key : Nat) (e : LandEntry) : LineRes × Dev :=
  let line := landLine h key e.tag
  let i := d.inject h 0 e.line
  let r := decodeLine line false none i.1
  let d := i.2
  match r.verdict with
  | .corrected =>
    let d := d.fixesNote h 4 key r.tags.ld.toNat (some line) r
    ((r, (d.healPut h key true e.line r.fixed).wayTally h (key % 16) r.fixes.length))
  | _ => (r, d)

/-- Read a frame line whose stored bits the environment has changed by `err`: decode, log and heal a correction. -/
def Dev.frameRead (d : Dev) (h : Half) (f j line : Nat) (err : SLine) : LineRes × Dev :=
  let d := d.subWake h (frameSub f)
  let l0 := d.frameLine h f j
  let l : SLine := { data := l0.data ^^^ err.data, side := l0.side ^^^ err.side }
  let d := if l = l0 then d else d.putFrameLine h f j l
  let d := d.wrap64 h (pgMEMC (frameSub f / 2)) 0x078
  let r := decodeFrame f j line l
  match r.verdict with
  | .corrected =>
    let d := d.fixesNote h 0 (d.frameLoc h f j) r.tags.ld.toNat (some line) r
    (r, d.healPut h (f * 1024 + j) false l r.fixed)
  | _ => (r, d)

/-- Zero the words whose W is 0 (R128, R134). -/
def maskW (w : BitVec 4) (x : LineData) : LineData :=
  let g (k : Nat) : BitVec 128 := if w.getLsbD k then lineWord x k else 0
  joinWords (g 0) (g 1) (g 2) (g 3)

/-- The plaintext of a decoded ciphertext line; `none` where its key does not serve (R262). A line with W = 0000 is
zeros and needs no key (R134). -/
def Dev.plain (d : Dev) (h : Half) (line : Nat) (r : LineRes) : Option LineData :=
  if r.tags.w = 0 then some 0 else (d.lineCrypt h false line r.tags r.data).map (maskW r.tags.w)

end Sys2Proof.Machine
end

