-- ==== Sys2Proof/Machine/Path.lean ====
section
/-! DEFINITION. The path of a request in its home half: the Manifest cache (R27, R102), reads (R26), writes (R28, R112,
R128, R182 to R186), promotion's start (R105), stream windows (R116), and the release of held requests (R111). -/

namespace Sys2Proof.Machine

/-! ### The Manifest cache (R102) -/

/-- Point the tree pseudo-LRU bits away from a way: node n has children 2n + 1 and 2n + 2, and bit 0 of a node names
its left child as the older (DESIGN CHOICE, notes/assumptions/20.md). -/
def plruTouch (b : BitVec 15) (w : Nat) : BitVec 15 :=
  let step (s : BitVec 15 × Nat) (k : Nat) : BitVec 15 × Nat :=
    let right := w.testBit k
    (if right then s.1 &&& ~~~(BitVec.twoPow 15 s.2) else s.1 ||| BitVec.twoPow 15 s.2, 2 * s.2 + (if right then 2 else 1))
  ([3, 2, 1, 0].foldl step (b, 0)).1

/-- The pseudo-least-recently-used way. -/
def plruVictim (b : BitVec 15) : Nat :=
  let step (s : Nat × Nat) (_ : Nat) : Nat × Nat :=
    let right := b.getLsbD s.2
    (2 * s.1 + (if right then 1 else 0), 2 * s.2 + (if right then 2 else 1))
  ([3, 2, 1, 0].foldl step (0, 0)).1

/-- The way of a tile in its set. -/
def Dev.mcWay (d : Dev) (h : Half) (t : Nat) : Option Nat :=
  if d.mcDisabled h (t % 65536) then none
  else (smGetD (d.half h).tier.mcache (t % 65536) {}).ways.findIdx? fun w => w == some t

/-- Mark a way of a set used, holding a tile. -/
def Dev.mcPut (d : Dev) (h : Half) (t w : Nat) : Dev :=
  d.upd h fun x =>
    let s := smGetD x.tier.mcache (t % 65536) {}
    let s' : McSet := { ways := s.ways.set w (some t), plru := plruTouch s.plru w }
    { x with tier := { x.tier with mcache := smPut x.tier.mcache (t % 65536) {} s' } }

/-- Bring a tile's entry into the cache: an empty way, else the pseudo-least-recently-used one. -/
def Dev.mcFill (d : Dev) (h : Half) (t : Nat) : Dev :=
  if d.mcDisabled h (t % 65536) || (d.mcWay h t).isSome then d
  else
    let s := smGetD (d.half h).tier.mcache (t % 65536) {}
    d.mcPut h t ((s.ways.findIdx? fun w => w == none).getD (plruVictim s.plru))

/-! ### Answers -/

/-- Read data goes to its requester: to the port through the visibility floor (R55), or over the Ford (R30). -/
def Dev.respond (d : Dev) (h : Half) (r : Req) (sailing : Nat) (data : LineData) (poison marks : Bool) : Dev :=
  match r.src with
  | .host _ _ _ _ => d.floor h { src := r.src, ld := r.ld, sailing := sailing, data := some data, poison := poison, marks := marks }
  | .ford tag =>
    (d.wrap64 h pgFORD 0x050).fordSend h (.memRdData tag (sailing % 2 ^ 18) poison (!marks) data)
  | .recall rtag => d.feryCtl h (.recallResp rtag 1 0 0 false 0 false 0 0)
  | .mailbox _ _ | .dropped => d

/-- Poison as a read's answer: zero bytes marked poison. -/
def Dev.respondPoison (d : Dev) (h : Half) (r : Req) (sailing : Nat) : Dev := d.respond h r sailing 0 true true

/-- The LD is in Strict mode (R44). -/
def Dev.strictMode (d : Dev) (h : Half) (c : Nat) : Bool := d.fld h (pgLDP c) 0x064 0 0 == 1

/-- A write of sailing s has been accepted: its completion (R28 step 7, R45, R29). Inject and Clear Poison and Set LSA
complete at the seal (R79, R81). -/
def Dev.accepted (d : Dev) (h : Half) (r : Req) (s : Nat) : Dev :=
  let wait (d : Dev) := d.upd h fun x => { x with sail := { x.sail with
    strict := x.sail.strict ++ [{ src := r.src, ld := r.ld, sailing := s }] } }
  match r.src with
  | .host _ p c _ =>
    let d := d.wrap64 h (pgHPT p) 0x058
    if d.strictMode h c then wait d else d.floor h { src := r.src, ld := r.ld, sailing := s, data := none }
  | .ford _ => d.floor h { src := r.src, ld := r.ld, sailing := s, data := none }
  | .mailbox _ _ => wait d
  | .recall _ | .dropped => d

/-- Discard a write with a normal completion that raises no mark (R75, R255). -/
def Dev.discard (d : Dev) (h : Half) (r : Req) : Dev :=
  match r.src with
  | .host _ _ _ _ | .mailbox _ _ => d.deliver h { src := r.src, ld := r.ld, sailing := 0, data := none, marks := false }
  | .ford tag => d.fordSend h (.memWrAck [tag])
  | .recall _ | .dropped => d

/-! ### Holding -/

/-- Hold a request for its tile (R111). -/
def Dev.hold (d : Dev) (h : Half) (r : Req) : Dev :=
  d.upd h fun x => { x with tier := { x.tier with held := x.tier.held ++ [r] } }

/-- The request is a write. -/
def Req.isWrite (r : Req) : Bool := match r.kind with
  | .read => false
  | .write _ _ _ => true

/-- A request that arrived earlier and waits must go first: one for the same line (R13), or for the same tile unless
it is DARK, whose reads pass held writes to other lines (R329). -/
def Dev.behind (d : Dev) (h : Half) (r : Req) : Bool :=
  let dark := (d.tile h (lineTile r.line)).state == .dark
  ((d.half h).tier.held.any fun q => q.line == r.line || (!dark && lineTile q.line == lineTile r.line))
    || ((d.half h).tier.dramReads.any fun q => q.line == r.line && (q.isWrite || r.isWrite))

/-- Frames an LD holds in a half (R113). -/
def Dev.ldFrames (d : Dev) (h : Half) (ld : Nat) : Nat :=
  ((d.half h).tier.manf.filter fun e => e.2.ld.toNat == ld && (TileStateResident e.2.state || e.2.state == .dark)).length
    + ((d.half h).tier.promos.filter fun p => p.frame.isSome && (d.tile h p.tile).ld.toNat == ld).length

/-- A register of an LD's own page, by LD number. -/
def Dev.ldReg (d : Dev) (ld off : Nat) : Nat := match d.findLd ld with
  | some (k, c) => (d.reg k (pgLDP c) off).toNat
  | none => 0

/-- The LD stands at its ceiling in the half (R113). -/
def Dev.atCeil (d : Dev) (h : Half) (ld : Nat) : Bool :=
  let c := d.ldReg ld 0x06C
  c != 0 && decide (c ≤ d.ldFrames h ld)

/-- A request for the tile is present in the fabric (R110). -/
def Dev.inFabric (d : Dev) (h : Half) (t : Nat) : Bool :=
  let x := d.half h
  (x.tier.fetching ++ x.tier.dramReads ++ x.tier.held ++ x.ecc.repairs.flatMap (·.held)).any fun r => lineTile r.line == t

/-- Open windows of a half, as (half, context, slot) with their LD: R115. -/
def Dev.windows (d : Dev) (h : Half) : List (Half × Nat × Stream) :=
  d.halves.flatMap fun k => (d.ctxs k).flatMap fun c =>
    ((d.ldc k c).streams.filter fun s => s.isOpen && lineHalf (s.start * 1024) == h).map fun s => (k, c, s)

/-- The full tile number at a position of a window, in scan order. -/
def Stream.tileAt (s : Stream) (p : Nat) : Nat := if s.descend then s.start - p else s.start + p

/-- The position of a full tile number in a window. -/
def Stream.posOf (s : Stream) (t : Nat) : Option Nat :=
  if s.descend then (if t ≤ s.start ∧ s.start - t < s.tiles then some (s.start - t) else none)
  else if s.start ≤ t ∧ t - s.start < s.tiles then some (t - s.start) else none

/-- The tile lies ahead of a window's consumer, in [p, p + AHEAD) (R116). -/
def Stream.covers (s : Stream) (t : Nat) : Bool := match s.posOf t with
  | some p => decide (s.pos ≤ p) && decide (p < s.pos + s.ahead)
  | none => false

/-- The tile may be evicted (R110); a line under repair keeps its tile (R143), and so does a retirement copy. -/
def Dev.evictable (d : Dev) (h : Half) (t : Nat) : Bool :=
  let e := d.tile h t
  e.state == .dramClean && !e.pinned && !(d.inFabric h t)
    && !((d.windows h).any fun w => w.2.2.covers (tileNo h t))
    && decide (d.ldReg e.ld.toNat 0x068 < d.ldFrames h e.ld.toNat)
    && !((d.half h).ecc.repairs.any fun r => lineTile r.line == t)
    && (((d.half h).tier.copying.map (·.tile)) != some t)
    && !((d.half h).fery.capturing.contains t)

/-- Age of a tile (R101). -/
def Dev.ageOf (d : Dev) (h : Half) (t : Nat) : Nat := ((d.half h).tier.ageClock - (d.tile h t).age).toNat

/-- Evict a clean tile: its Landing lines go, its frame goes to FREE_RAW (R104, R110). -/
def Dev.evict (d : Dev) (h : Half) (t : Nat) : Dev :=
  let e := d.tile h t
  ((d.landDropTile h t).freeFrame h e.frame.toNat).setTile h t { e with state := .nandOnly, frame := 0 }

/-- The eligible tile of an LD that a request at its ceiling evicts first (R113): stream-marked ones before the
others, then the greatest age. -/
def Dev.ownVictim (d : Dev) (h : Half) (ld : Nat) : Option Nat :=
  let c := (d.half h).tier.manf.filter fun e => e.2.ld.toNat == ld && d.evictable h e.1
  let pick (l : List (Nat × ManfEntry)) : Option Nat :=
    (l.foldl (fun b e => match b with
      | none => some (e.1, d.ageOf h e.1)
      | some (t, a) => if a < d.ageOf h e.1 then some (e.1, d.ageOf h e.1) else some (t, a)) none).map (·.1)
  (pick (c.filter fun e => e.2.stream)).orElse fun _ => pick c

/-- Take a frame for an LD within its ceiling (R96, R110, R113). `fresh` raises `FRAME_STARVED` where it must wait. -/
def Dev.takeFrame (d : Dev) (h : Half) (ld : Nat) (pref other : FrameState) (fresh : Bool) : Option Nat × Dev :=
  let starve (d : Dev) : Option Nat × Dev := (none, if fresh then d.raise h pgTIER .frameStarved ld else d)
  if d.atCeil h ld then
    match d.ownVictim h ld with
    | none => starve d
    | some t =>
      match (d.evict h t).allocFrame h ld pref other with
      | some (f, d) => (some f, d)
      | none => starve d
  else
    match d.allocFrame h ld pref other with
    | some (f, d) => (some f, d)
    | none => starve d

/-- Start a promotion: RISING, and a frame where there is one (R105 step 1). `retry`, `rehome` as the promotion's. -/
def Dev.promote (d : Dev) (h : Half) (t : Nat) : Dev :=
  let e := d.tile h t
  if e.state != .nandOnly then d
  else
    let p := d.takeFrame h e.ld.toNat .freeRaw .freeFmt true
    let d := match p.1 with
      | some f => p.2.setFrame h f { state := .used, tile := t }
      | none => p.2
    let d := d.setTile h t { e with state := .rising, frame := BitVec.ofNat 27 (p.1.getD 0) }
    d.upd h fun x => { x with tier := { x.tier with promos := x.tier.promos ++ [{ tile := t, frame := p.1 }] } }

/-! ### Stream windows (R116) -/

/-- Prefetch a tile of a window: promoted while the LD is below its ceiling, or after evicting one of the LD's
stream-marked tiles; otherwise prefetch pauses. -/
def Dev.prefetch (d : Dev) (h : Half) (t : Nat) : Dev :=
  let e := d.tile h t
  if e.state != .nandOnly then d
  else if d.atCeil h e.ld.toNat then
    if ((d.half h).tier.manf.any fun g => g.2.ld == e.ld && g.2.stream && d.evictable h g.1) then d.promote h t else d
  else d.promote h t

/-- Set STREAM on a passed tile, unless another window has still to pass it (R116, R117). -/
def Dev.markStream (d : Dev) (h : Half) (t : Nat) : Dev :=
  let e := d.tile h t
  let ahead := (d.windows h).any fun w => match w.2.2.posOf (tileNo h t) with
    | some p => decide (w.2.2.pos ≤ p)
    | none => false
  if e.state = .blank ∨ e.stream ∨ ahead then d
  else
    (d.setTile h t { e with stream := true }).upd h fun x => { x with tier := { x.tier with
      streamList := x.tier.streamList ++ [t] } }

/-- Prefetch so that positions p to p + AHEAD − 1 are resident or rising. -/
def Dev.windowFill (d : Dev) (h : Half) (s : Stream) : Dev :=
  ((List.range s.ahead).filter fun i => decide (s.pos + i < s.tiles)).foldl (fun d i =>
    d.prefetch h (s.tileAt (s.pos + i) % 2 ^ 35)) d

/-- Replace a stream slot. -/
def Dev.setStream (d : Dev) (k : Half) (c i : Nat) (s : Stream) : Dev :=
  d.updLd k c fun x => { x with streams := x.streams.set i s }

/-- An access by an LD moves its windows' consumers: to its position when it falls in [p, p + AHEAD] or beyond;
accesses behind p move nothing. The window ends with DONE when p passes the last tile (R116). -/
def Dev.streamTouch (d : Dev) (h : Half) (ld t : Nat) : Dev :=
  match d.findLd ld with
  | none => d
  | some (k, c) =>
    (List.range 4).foldl (fun d i =>
      let s := (d.ldc k c).streams.getD i {}
      if !s.isOpen then d
      else match s.posOf (tileNo h t) with
        | none => d
        | some p =>
          if p < s.pos then d
          else
            let s' := { s with pos := p, lastUse := d.uptime }
            let d := d.setStream k c i s'
            let d := (List.range (p - s.pos)).foldl (fun d j => d.markStream h (s.tileAt (s.pos + j) % 2 ^ 35)) d
            let d := d.windowFill h s'
            if p + 1 = s.tiles then d.setStream k c i { s' with isOpen := false, status := 2 } else d) d

/-! ### Writes -/

/-- The line after a write of the bytes of a mask (R128). -/
def mergeBytes (old new : LineData) (mask : BitVec 64) : LineData :=
  (List.range 64).foldl (fun v k => if mask.getLsbD k then
    (v &&& ~~~((0xFF : LineData) <<< (8 * k))) ||| (new &&& ((0xFF : LineData) <<< (8 * k))) else v) old

/-- W bits of the words in which a mask writes any byte (R128). -/
def maskWords (mask : BitVec 64) : BitVec 4 :=
  BitVec.ofNat 4 (lsum ((List.range 4).map fun w => if mask.extractLsb' (16 * w) 16 = 0 then 0 else 2 ^ w))

/-- The whole mask. -/
def fullMask : BitVec 64 := 0xFFFFFFFFFFFFFFFF

/-- The write needs the stored line: a partial write, or a poison write that keeps the data. -/
def ReqKind.merges : ReqKind → Bool
  | .read => false
  | .write _ m p => m != fullMask || p

/-- Put a dirty victim of a set into the eviction buffer, or find that it is uncorrectable (R183, R185). A full buffer
issues its oldest write first. -/
def Dev.pushVictim (d : Dev) (h : Half) (key : Nat) (e : LandEntry) : Bool × Dev :=
  let line := landLine h key e.tag
  let p := d.landRead h key e
  match p.1.verdict with
  | .bad _ => (false, p.2.landBad h key e p.1)
  | _ =>
    let d := if 16 ≤ (p.2.half h).land.buf.length then p.2.bufIssue h else p.2
    let b : EvictBuf := { line := line, frame := (d.tile h (lineTile line)).frame.toNat
                          cipher := d.landCipher h line e.line, way := key % 16 }
    (true, ((d.upd h fun x => { x with land := { x.land with buf := x.land.buf ++ [b] } }).landDrop h key).wrap64 h pgLAND 0x0D0)

/-- Allocate a slot for a line: the key of the slot, or none where it bypasses (R183, R186). A read miss whose dirty
victim would need a full buffer does not allocate. -/
def Dev.landAlloc (d : Dev) (h : Half) (line : Nat) (isRead : Bool) : Option Nat × Dev :=
  let x := (d.half h).land
  if x.state != .enabled then (none, d)
  else
    let s := landSet line
    let el := d.eligible h s
    let va := (List.range 16).filter fun w => (smGet x.slots (s * 16 + w)).isSome
    match chooseWay x.lfsr el va with
    | none => (none, d)
    | some (w, l) =>
      let d := d.upd h fun x => { x with land := { x.land with lfsr := l } }
      let key := s * 16 + w
      match smGet (d.half h).land.slots key with
      | none => (some key, d)
      | some e =>
        if !e.dirty then (some key, d.landDrop h key)
        else if isRead && decide (16 ≤ (d.half h).land.buf.length) then (none, d)
        else
          let p := d.pushVictim h key e
          (if p.1 then some key else none, p.2)

/-- Store a plaintext line: in the cache as dirty, or past it into the frame (R182, R186). While the cache drains a
write hit goes through to the frame too and leaves the line clean (R190). -/
def Dev.storeLine (d : Dev) (h : Half) (line : Nat) (x : LineData) (t : Tags) : Dev :=
  let f := (d.tile h (lineTile line)).frame.toNat
  let j := lineJ line
  let through (d : Dev) : Dev :=
    let c := (d.lineCrypt h true line t x).getD 0
    (d.putFrameLine h f j (encodeLine line c t)).wrap64 h (pgMEMC (frameSub f / 2)) 0x080
  let l := encodeLine line x t
  let tag := landTag line
  match d.landFind h line with
  | some (key, _) =>
    if (d.half h).land.state = .draining then through (d.landPut h key { tag := tag, dirty := false, line := l })
    else d.landPut h key { tag := tag, dirty := true, line := l }
  | none =>
    let p := d.landAlloc h line false
    match p.1 with
    | some key => p.2.landPut h key { tag := tag, dirty := true, line := l }
    | none => through p.2

/-- Accept a write: stamp, store, mirror, complete (R28). `old` is the stored line's plaintext, W and POISON. -/
def Dev.acceptWrite (d : Dev) (h : Half) (r : Req) (old : LineData) (oldW : BitVec 4) (oldPoison : Bool) : Dev :=
  match r.kind with
  | .read => d
  | .write data mask poison =>
    let t := lineTile r.line
    let e := d.tile h t
    let s := (d.half h).sail.current
    let new := mergeBytes old data mask
    let bad := poison || (oldPoison && mask != fullMask)
    let w := if poison then 0xF else oldW ||| maskWords mask
    let tags := mkTags (BitVec.ofNat 18 s) 0 e.slot e.phase bad w false (BitVec.ofNat 7 r.ld)
    let d := d.setTile h t { e with
      state := if e.state = .sinking then .sinking else .dramDirty
      lastSailing := BitVec.ofNat 28 s }
    let d := d.upd h fun x => { x with tier := { x.tier with
      sinks := x.tier.sinks.map fun k => if k.tile = t then { k with touched := true } else k } }
    let d := d.storeLine h r.line new tags
    let c := (d.lineCrypt h true r.line tags new).getD 0
    let d := d.mirror h (.mirror (BitVec.ofNat 18 s) (BitVec.ofNat 7 r.ld) e.slot e.phase
      [{ line := r.line, w := w, poison := bad, data := c }]) 1
    let d := if poison then (d.poisonDrop h r.line).poisonList h r.line 2
      else if bad then d else d.poisonDrop h r.line
    d.accepted h r s

/-- The LDA of a line in an LD's extents, in bytes (R72). -/
def Dev.ldaOf (d : Dev) (k : Half) (c line : Nat) : Nat :=
  match (d.extents k c).find? fun e => decide (e.dpa ≤ line / 2 ^ 20) && decide (line / 2 ^ 20 < e.dpa + e.len) with
  | some e => (e.lda * 2 ^ 20 + (line - e.dpa * 2 ^ 20)) * 64
  | none => 0

/-- What software sees of an unmapped access by an LD (R75, R78, R90). -/
def Dev.unmappedNote (d : Dev) (k : Half) (c lda : Nat) : Dev :=
  let p := pgHPT (d.ldPort k c)
  (((d.sat k p 0x060).raise k p .unmappedAccess (d.ldNum k c) lda).evLatch k c 8).logEvent k c .generalMedia (lda / 64) 2

/-- A write refused for want of a key (R255): discarded, with `KEY_ABSENT` and the marks of an unmapped access. -/
def Dev.keyAbsent (d : Dev) (h : Half) (r : Req) : Dev :=
  let d := d.raise h pgKEYS .keyAbsent r.ld
  let d := match d.findLd r.ld with
    | some (k, c) => d.unmappedNote k c (d.ldaOf k c r.line)
    | none => d
  d.discard h r

/-- The slot that the LD's new tiles take (R255). -/
def Dev.ldSlot (d : Dev) (ld : Nat) : Nat := d.ldReg ld 0x078 % 1024

/-- The first write to a BLANK or LOST tile takes a frame, formatted ahead of other work where only a raw one is free
(R97, R104). A LOST tile's lines are poisoned first. -/
def Dev.firstWrite (d : Dev) (h : Half) (r : Req) (fresh : Bool) : Option Dev × Dev :=
  let t := lineTile r.line
  let e := d.tile h t
  let slot := d.ldSlot r.ld
  let k := d.kslot h slot
  let p := d.takeFrame h r.ld .freeFmt .freeRaw fresh
  match p.1 with
  | none => (none, p.2)
  | some f =>
    let d := if (p.2.frame h f).state = .freeRaw then p.2.formatFrame h f else p.2
    let d := d.setFrame h f { state := .used, tile := t }
    let m := { e with
      state := .dramDirty, frame := BitVec.ofNat 27 f, ld := BitVec.ofNat 7 r.ld, slot := BitVec.ofNat 10 slot
      phase := k.cur, nand := 0xFFFFFFFFF, age := (d.half h).tier.ageClock
      lastSailing := BitVec.ofNat 28 (d.half h).sail.current }
    let d := d.setTile h t m
    if e.state = .lost then
      let tg := mkTags (BitVec.ofNat 18 (d.half h).sail.current) 0 m.slot m.phase true 0xF false m.ld
      (some ((List.range 1024).foldl (fun d j => d.putFrameLine h f j (encodeLine (lineOf h t j) 0 tg)) d), d)
    else (some d, d)

/-- A write whose tile is resident, or has just taken its frame (R111, R128, R182, R185). -/
def Dev.writeResident (d : Dev) (h : Half) (r : Req) : Dev :=
  let t := lineTile r.line
  let e := d.tile h t
  if !((d.kslot h e.slot.toNat).serves e.phase) then d.discard h r
  else
    match d.repairOf h r.line with
    | some p =>
      if r.kind.merges then
        d.upd h fun x => { x with ecc := { x.ecc with
          repairs := x.ecc.repairs.map fun q => if q = p then { q with held := q.held ++ [r] } else q } }
      else (d.acceptWrite h r 0 0 false).repairEnd h r.line (some 3)
    | none =>
      match (d.half h).land.buf.find? fun b => b.line == r.line with
      | some b =>
        let res := decodeLine r.line true none b.cipher
        let d := d.upd h fun x => { x with land := { x.land with buf := x.land.buf.filter fun c => c.line != r.line } }
        d.acceptWrite h r ((d.plain h r.line res).getD 0) res.tags.w res.tags.poison
      | none =>
        if !r.kind.merges then d.acceptWrite h r 0 0 false
        else
          match d.landFind h r.line with
          | some (key, le) =>
            let p := d.landRead h key le
            match p.1.verdict with
            | .bad _ => (p.2.landBad h key le p.1).hold h r
            | _ => p.2.acceptWrite h r p.1.data p.1.tags.w p.1.tags.poison
          | none => d.upd h fun x => { x with tier := { x.tier with dramReads := x.tier.dramReads ++ [r] } }

/-- A DARK tile with a held request goes to the head of the re-homing queue, behind earlier such tiles (R329, R330). -/
def Dev.darkFirst (d : Dev) (h : Half) (t : Nat) : Dev :=
  d.upd h fun x =>
    let q := x.tier.rehome.filter fun u => u != t
    let n := (q.takeWhile fun u => x.tier.held.any fun r => lineTile r.line == u).length
    { x with tier := { x.tier with rehome := q.take n ++ [t] ++ q.drop n } }

/-- A write in the home half, the tile's state known (R111, R112). -/
def Dev.writeGo (d : Dev) (h : Half) (r : Req) (fresh : Bool) : Dev :=
  let t := lineTile r.line
  let e := d.tile h t
  if d.behind h r || (d.half h).fery.capturing.contains t || (((d.half h).tier.copying.map (·.tile)) == some t) then d.hold h r
  else
    match e.state with
    | .nandOnly => (d.promote h t).hold h r
    | .rising => d.hold h r
    | .dark => (d.darkFirst h t).hold h r
    | .dramDirty | .sinking => (d.touchAge h t).writeResident h r
    | .dramClean => if d.newDirtyHeld h then d.hold h r else (d.touchAge h t).writeResident h r
    | .blank | .lost =>
      let k := d.kslot h (d.ldSlot r.ld)
      if !(k.state == .active || k.state == .sweeping) then d.keyAbsent h r
      else if d.newDirtyHeld h then d.hold h r
      else
        match d.firstWrite h r fresh with
        | (some d, _) => d.writeResident h r
        | (none, d) => d.hold h r

/-! ### Reads -/

/-- A decoded line leaves as data, or as poison: its POISON bit, or no key for it (R134 step 5, R262). -/
def Dev.readOut (d : Dev) (h : Half) (r : Req) (tags : Tags) (x : Option LineData) : Dev :=
  let s := resolve 18 (d.half h).sail.current tags.stamp.toNat
  match x with
  | none => (d.sat h pgCIPH 0x078).respond h r s 0 true true
  | some v => d.respond h r s v tags.poison true

/-- Answer a recall of the peer from a resident tile (R219): the frame's stored line and tags. -/
def Dev.recallAnswer (d : Dev) (h : Half) (r : Req) (rtag : Nat) : Dev :=
  let f := (d.tile h (lineTile r.line)).frame.toNat
  let p := d.frameRead h f (lineJ r.line) r.line {}
  let t := p.1.tags
  match p.1.verdict with
  | .bad _ => (p.2.repairStart h r.line f p.1 []).feryCtl h (.recallResp rtag 3 t.stamp t.w true t.slot t.phase t.ld 0)
  | _ =>
    let d := if t.poison then p.2 else p.2.wrap64 h pgFERY 0x0F8
    d.feryCtl h (.recallResp rtag (if t.poison then 3 else 0) t.stamp t.w t.poison t.slot t.phase t.ld
      (if t.poison then 0 else p.1.data))

/-- A read of a tile in DRAM: a Landing hit, the eviction buffer, or the frame (R26, R185). -/
def Dev.readResident (d : Dev) (h : Half) (r : Req) : Dev :=
  match r.src with
  | .recall rtag => d.recallAnswer h r rtag
  | _ =>
    if (d.repairOf h r.line).isSome then
      d.upd h fun x => { x with ecc := { x.ecc with
        repairs := x.ecc.repairs.map fun q => if q.line = r.line then { q with held := q.held ++ [r] } else q } }
    else
      match d.landFind h r.line with
      | some (key, le) =>
        let p := d.landRead h key le
        match p.1.verdict with
        | .bad _ => (p.2.landBad h key le p.1).hold h r
        | _ => p.2.readOut h r p.1.tags (some p.1.data)
      | none =>
        match (d.half h).land.buf.find? fun b => b.line == r.line with
        | some b =>
          let i := d.inject h 4 b.cipher
          let res := decodeLine r.line true none i.1
          match res.verdict with
          | .bad _ =>
            ((i.2.upd h fun x => { x with land := { x.land with buf := x.land.buf.filter fun c => c.line != r.line } }).repairStart h
              r.line b.frame res [r])
          | .corrected => (i.2.fixesNote h 5 0 res.tags.ld.toNat (some r.line) res).readOut h r res.tags (i.2.plain h r.line res)
          | .clean => i.2.readOut h r res.tags (i.2.plain h r.line res)
        | none => d.upd h fun x => { x with tier := { x.tier with dramReads := x.tier.dramReads ++ [r] } }

/-- The trailer SAILING of a tile's NAND copy equals LAST_SAILING: a clean source (R330). -/
def Dev.nandFresh (d : Dev) (h : Half) (e : ManfEntry) : Bool :=
  match smGet (d.half h).tier.nand e.nand.toNat with
  | some i => BitVec.ofNat 28 i.sailing == e.lastSailing && e.nand != 0xFFFFFFFFF
  | none => false

/-- A read of a DARK tile: a Landing hit is served; otherwise it waits at the head of the re-homing queue, and a dirty
tile's line is recalled by itself once the seal-wait is met (R329). -/
def Dev.readDark (d : Dev) (h : Half) (r : Req) : Dev :=
  let t := lineTile r.line
  let e := d.tile h t
  if (d.landFind h r.line).isSome || (d.half h).land.buf.any (fun b => b.line == r.line) then d.readResident h r
  else
    let d := (d.darkFirst h t).hold h r
    if !(d.nandFresh h e) && d.recallCan h e.lastSailing && d.mirroredOk h e.lastSailing
        && !((d.half h).fery.recalls.any fun q => q.line == r.line) then
      d.recall h r.line e.lastSailing.toNat .read
    else d

/-- A read in the home half, the tile's state known (R104, R111). -/
def Dev.readGo (d : Dev) (h : Half) (r : Req) : Dev :=
  let t := lineTile r.line
  let e := d.tile h t
  if d.behind h r || (((d.half h).tier.copying.map (·.tile)) == some t) then d.hold h r
  else
    match e.state with
    | .blank => d.respond h r 0 0 false false
    | .lost => d.respondPoison h r (d.lastSailing h e)
    | .nandOnly => (d.promote h t).hold h r
    | .rising => d.hold h r
    | .dark => d.readDark h r
    | .dramClean | .dramDirty | .sinking => (d.touchAge h t).readResident h r

/-- A request whose Manifest entry is at hand. -/
def Dev.go (d : Dev) (h : Half) (r : Req) (fresh : Bool) : Dev :=
  let d := if fresh then d.wrap64 h pgLAND (if (d.landFind h r.line).isSome then 0x0C0 else 0x0C8) else d
  let d := if fresh then d.streamTouch h r.ld (lineTile r.line) else d
  match r.kind with
  | .read => d.readGo h r
  | .write _ _ _ => d.writeGo h r fresh

/-- A request reaches the home half's fabric: the Manifest lookup (R26 step 3, R27). -/
def Dev.arrive (d : Dev) (h : Half) (r : Req) : Dev :=
  let t := lineTile r.line
  if (d.half h).tier.fetching.any fun q => lineTile q.line == t then
    (d.wrap64 h pgMANF 0x058).upd h fun x => { x with tier := { x.tier with fetching := x.tier.fetching ++ [r] } }
  else
    match d.mcWay h t with
    | some w => ((((d.injTally h 1 7 (t % 65536)).wrap64 h pgMANF 0x050)).mcPut h t w).go h r true
    | none => (d.wrap64 h pgMANF 0x058).upd h fun x => { x with tier := { x.tier with fetching := x.tier.fetching ++ [r] } }

/-! ### The release of held requests -/

/-- Give frames to promotions that wait for one (R110). -/
def Dev.giveFrames (d : Dev) (h : Half) : Dev :=
  ((d.half h).tier.promos.filter fun p => p.frame.isNone).foldl (fun d p =>
    let e := d.tile h p.tile
    let q := d.takeFrame h e.ld.toNat .freeRaw .freeFmt false
    match q.1 with
    | none => q.2
    | some f =>
      let d := q.2.setFrame h f { state := .used, tile := p.tile }
      let d := if p.rehome then d else d.setTile h p.tile { e with frame := BitVec.ofNat 27 f }
      d.upd h fun x => { x with tier := { x.tier with
        promos := x.tier.promos.map fun o => if o.tile = p.tile then { o with frame := some f } else o } }) d

/-- Try a half's held requests again, in arrival order; those that must still wait are held again. -/
def Dev.retryHeld (d : Dev) (h : Half) : Dev :=
  let q := (d.half h).tier.held
  let d := d.upd h fun x => { x with tier := { x.tier with held := [] } }
  q.foldl (fun d r => match r.kind with
    | .read => d.readGo h r
    | .write _ _ _ => d.writeGo h r false) d

/-- A request leaves its port for its home half: into the fabric of its own half, or over the Ford with a tag (R29). -/
def Dev.route (d : Dev) (k : Half) (r : Req) : Dev :=
  let home := lineHalf r.line
  if home = k then d.arrive k r
  else match r.src with
    | .mailbox _ _ => d.arrive home r
    | _ =>
      let tag := (d.half k).nextTag % 4096
      let c : Cross := { tag := tag, src := r.src, ld := r.ld, isRead := !r.isWrite }
      let d := d.upd k fun x => { x with nextTag := (tag + 1) % 4096, crossing := x.crossing ++ [c] }
      match r.kind with
      | .read => d.fordSend k (.memRd r.line r.ld tag)
      | .write data mask _ =>
        let d := d.wrap64 k pgFORD 0x058
        if mask = fullMask then d.fordSend k (.memWr r.line r.ld tag data) else d.fordSend k (.memWrp r.line r.ld tag data mask)

/-- New writes are held at a half's ports: `HOLDING` (R59), or re-arming after a Last Ferry (R325). -/
def Dev.holdsWrites (d : Dev) (k : Half) : Bool := (d.half k).sail.holding || (d.half k).pwr.rearm

/-- A write at its port: held while the half holds writes (R59, R325). -/
def Dev.portWrite (d : Dev) (k : Half) (r : Req) : Dev :=
  if d.holdsWrites k then d.upd k fun x => { x with sail := { x.sail with heldWrites := x.sail.heldWrites ++ [r] } }
  else d.route k r

/-- After anything that may end a wait: writes held by `HOLDING`, promotions without a frame, held requests. -/
def Dev.settle (d : Dev) : Dev :=
  d.eachHalf fun d h =>
    let x := d.half h
    let d := if d.holdsWrites h || x.sail.heldWrites.isEmpty then d
      else
        let q := x.sail.heldWrites
        q.foldl (fun d r => d.route h r) (d.upd h fun x => { x with sail := { x.sail with heldWrites := [] } })
    let d := d.giveFrames h
    let d := if (d.half h).ecc.repairs.isEmpty then d else d.repairReview
    if (d.half h).tier.held.isEmpty then d else d.retryHeld h

/-- A meaning after which held requests may go on. -/
def onDevS (f : Dev → Dev) (s : State) : Out := onDev (fun d => (f d).settle) s

end Sys2Proof.Machine
end

