-- ==== Sys2Proof/Machine/FlashBase.lean ====
section
/-! DEFINITION. The flash tier's log (chapter 09): NAND locations (R225), the stripe table (R238), opening stripes (R239),
the over-provisioning (R240), and Last Ferry's reserve (R246).
Log entries of notes/assumptions that bear on this file: DESIGN CHOICE 26. -/

namespace Sys2Proof.Machine

/-- No NAND copy (R225). -/
def noNand : Nat := 0xFFFFFFFFF

/-- Fields of a NAND location (R225): stripe key, LUN key, channel, island, page. -/
def nandStripe (a : Nat) : Nat := a / 2048
def nandLun (a : Nat) : Nat := a / 2 ^ 23
def nandChan (a : Nat) : Nat := a / 2 ^ 31
def nandIsle (a : Nat) : Nat := a / 2 ^ 31 / 8
def nandPage (a : Nat) : Nat := a % 2048
/-- LUN of a stripe key. -/
def stripeLun (k : Nat) : Nat := k / 4096

/-- Change the flash tier of a half. -/
def Dev.updFlash (d : Dev) (h : Half) (f : FlashHalf → FlashHalf) : Dev := d.upd h fun x => { x with flash := f x.flash }

/-- A stripe-table entry, by key. -/
def Dev.stripe (d : Dev) (h : Half) (k : Nat) : Stripe := smGetD (d.half h).flash.stripes k {}

/-- Replace a stripe-table entry. -/
def Dev.setStripe (d : Dev) (h : Half) (k : Nat) (s : Stripe) : Dev :=
  d.updFlash h fun x => { x with stripes := smPut x.stripes k {} s }

/-- Pages that a stripe holds in its mode (R225). -/
def Dev.stripePages (d : Dev) (h : Half) (s : Stripe) : Nat :=
  if s.slc then (d.half h).flash.pages / max 1 (d.half h).flash.bits else (d.half h).flash.pages

/-- The LUN can be used. -/
def Dev.lunOk (d : Dev) (h : Half) (l : Nat) : Bool :=
  (d.half h).flash.luns.contains l && !((d.half h).flash.failedLuns.contains l)
    && ((((d.half h).flash.isles.getD (l / 2 ^ 8 / 8) {}).chans.getD (l / 2 ^ 8 % 8) 0) == 2)

/-- Descriptors queued or running on a LUN, and sinks whose program runs there. -/
def Dev.lunQueue (d : Dev) (h : Half) (l : Nat) : Nat :=
  lsum ((d.half h).flash.isles.map fun i => (i.ops.filter fun o => nandLun o.addr == l).length)
    + ((d.half h).tier.sinks.filter fun s => nandLun s.loc == l).length

/-- The LUN runs an erase. -/
def Dev.lunErasing (d : Dev) (h : Half) (l : Nat) : Bool :=
  (d.half h).flash.isles.any fun i => i.ops.any fun o => nandLun o.addr == l && o.op == 3

/-- ERASED and VOUCHED stripes of the half outside the reserve: `FLSH.POOL_ERASED`. -/
def Dev.poolErased (d : Dev) (h : Half) : Nat :=
  ((d.half h).flash.stripes.filter fun e => (e.2.state == .erased || e.2.state == .vouched)).length

/-- Good tiles of the half: its usable stripes outside the system region, times their pages (R91, R241). -/
def Dev.badStripes (d : Dev) (h : Half) : Nat := ((d.half h).flash.stripes.filter fun e => e.2.state == .bad).length
def Dev.sysStripes (d : Dev) (h : Half) : Nat :=
  ((d.half h).flash.stripes.filter fun e => e.2.state == .system || (e.2.use == 3 && e.2.state != .bad)).length
def Dev.allStripes (d : Dev) (h : Half) : Nat := (d.half h).flash.luns.length * (d.half h).flash.stripesPerLun

/-- Free over-provisioning in tiles: good tiles outside the system region beyond the backed count (R240). -/
def Dev.opLeft (d : Dev) (h : Half) : Nat :=
  (d.allStripes h - d.badStripes h - d.sysStripes h) * (d.half h).flash.pages - (d.half h).tier.backed

/-- The sink rate in tiles per second and the pool target (R236). -/
def Dev.poolTarget (d : Dev) (h : Half) : Nat :=
  let f := (d.half h).flash
  let t := min 1577563 ((f.luns.filter fun l => d.lunOk h l).length * 1250)
  if f.pages = 0 then 0 else min ((600 * t + f.pages - 1) / f.pages) (d.opLeft h / 2 / f.pages)

/-- Minutes that the target holds at the full rate (R236). -/
def Dev.poolMinutes (d : Dev) (h : Half) : Nat :=
  let f := (d.half h).flash
  let t := min 1577563 ((f.luns.filter fun l => d.lunOk h l).length * 1250)
  if t = 0 then 0 else d.poolTarget h * f.pages / t / 60

/-- Events on falling pool and over-provisioning (R236, R240), judged before and after a change. -/
def Dev.poolNote (was d : Dev) (h : Half) : Dev :=
  let d := if was.poolTarget h ≤ 10 * was.poolErased h ∧ 10 * d.poolErased h < d.poolTarget h then d.raise h (pgFLSH 0) .poolLow else d
  if (was.half h).tier.backed ≤ 100 * was.opLeft h ∧ 100 * d.opLeft h < (d.half h).tier.backed then
    d.raise h (pgFLSH 0) .opExhausted
  else d

/-- The open stripe of a LUN for a purpose. -/
def Dev.openOn (d : Dev) (h : Half) (l use : Nat) : Option (Nat × Stripe) :=
  (d.half h).flash.stripes.find? fun e => stripeLun e.1 == l && e.2.state == .opened && e.2.use == use

/-- The ERASED stripe of a LUN with the lowest ERASES (R239). A VOUCHED one becomes ERASED by its check first (R244). -/
def Dev.erasedOn (d : Dev) (h : Half) (l : Nat) : Option (Nat × Stripe) :=
  ((d.half h).flash.stripes.filter fun e => stripeLun e.1 == l && e.2.state == .erased).foldl (fun b e => match b with
    | none => some e
    | some g => if e.2.erases < g.2.erases then some e else some g) none

/-- Open a stripe: OPEN, with the next SEQ (R238). -/
def Dev.openStripe (d : Dev) (h : Half) (k use : Nat) (s : Stripe) : Dev :=
  let d := d.updFlash h fun x => { x with openSeq := x.openSeq + 1 }
  d.setStripe h k { s with state := .opened, seq := (d.half h).flash.openSeq % 2 ^ 28, nextPage := 0, use := use }

/-- Take the next page of an open stripe; the stripe closes with its last page (R237). -/
def Dev.takePage (d : Dev) (h : Half) (k : Nat) (s : Stripe) : Nat × Dev :=
  (k * 2048 + s.nextPage,
    d.setStripe h k { s with nextPage := s.nextPage + 1
                             state := if s.nextPage + 1 ≥ d.stripePages h s then .full else s.state })

/-- The page the next sink programs (R239): on the LUN with the shortest queue that is not erasing and has an open or an
erased stripe. -/
def Dev.sinkPage (d : Dev) (h : Half) (use : Nat) : Option (Nat × Dev) :=
  let ls := (d.half h).flash.luns.filter fun l => d.lunOk h l && !(d.lunErasing h l)
    && ((d.openOn h l use).isSome || (d.erasedOn h l).isSome)
  let best := ls.foldl (fun b l => match b with
    | none => some l
    | some m => if d.lunQueue h l < d.lunQueue h m then some l else some m) none
  match best with
  | none => none
  | some l =>
    match d.openOn h l use with
    | some (k, s) => some (d.takePage h k s)
    | none => match d.erasedOn h l with
      | some (k, s) =>
        let d' := d.openStripe h k use s
        some ((d.poolNote d' h).takePage h k (d'.stripe h k))
      | none => none

/-- A NAND copy becomes current (R238). -/
def Dev.nandLive (d : Dev) (h : Half) (a : Nat) : Dev :=
  if a = noNand then d else d.setStripe h (nandStripe a) { d.stripe h (nandStripe a) with live := (d.stripe h (nandStripe a)).live + 1 }

/-- Mark a block GROWN_BAD, and its stripe BAD (R241, R243). -/
def Dev.markBad (d : Dev) (h : Half) (k p : Nat) : Dev :=
  let d' := (d.updFlash h fun x => { x with blocks := smPut x.blocks (k * 4 + p) 0 2 }).setStripe h k
    { d.stripe h k with state := .bad, failed := none, live := 0 }
  d.poolNote (d'.raise h (pgFLSH (nandIsle (k * 2048))) .grownBad (k * 2048)) h

/-- A NAND copy becomes stale. A FULL stripe whose LIVE reaches 0 becomes STALE, or BAD where a program failed on it
(R238, R243). -/
def Dev.nandStale (d : Dev) (h : Half) (a : Nat) : Dev :=
  if a = noNand then d
  else
    let k := nandStripe a
    let s := { d.stripe h k with live := (d.stripe h k).live - 1 }
    let d := d.setStripe h k (if s.live = 0 && s.state == .full then { s with state := .stale } else s)
    match s.failed with
    | some p => if s.live = 0 then d.markBad h k p else d
    | none => d

/-- A program failed: the stripe closes, and turns BAD at once where it holds no live tile (R237, R243). -/
def Dev.programFail (d : Dev) (h : Half) (a p : Nat) : Dev :=
  let k := nandStripe a
  let s := d.stripe h k
  if s.live = 0 then d.markBad h k p else d.setStripe h k { s with state := .full, failed := some p }

/-- Store a tile's image at a location. -/
def Dev.putNand (d : Dev) (h : Half) (a : Nat) (i : TileImg) : Dev :=
  d.upd h fun x => { x with tier := { x.tier with nand := smSet x.tier.nand a i } }

/-- The image at a location. -/
def Dev.nandImg (d : Dev) (h : Half) (a : Nat) : Option TileImg := smGet (d.half h).tier.nand a

/-! ### Release -/

/-- A tile in a transition, whose release waits (R104, R111). -/
def Dev.inTransition (d : Dev) (h : Half) (t : Nat) : Bool :=
  let e := d.tile h t
  e.state == .rising || e.state == .sinking || (d.half h).tier.promos.any (fun p => p.tile == t)
    || (((d.half h).tier.copying.map (·.tile)) == some t) || (d.half h).fery.capturing.contains t

/-- Take a tile out of DRAM and NAND: frame freed, copy stale, Landing lines and buffered writes gone, repairs ended
UE_REPAIRED with REPAIR 3, poison-list entries gone (R104, R143, R181, R185, R191). -/
def Dev.dropTile (d : Dev) (h : Half) (t : Nat) : Dev :=
  let e := d.tile h t
  let d := ((d.half h).ecc.repairs.filter fun r => lineTile r.line == t).foldl (fun d r => d.repairEnd h r.line (some 3)) d
  let d := d.landDropTile h t
  let d := if TileStateResident e.state then d.freeFrame h e.frame.toNat else d
  let d := d.nandStale h e.nand.toNat
  d.upd h fun x => { x with
    ecc := { x.ecc with poison := x.ecc.poison.filter fun p => !(lineTile p.1 == t) }
    tier := { x.tier with rehome := x.tier.rehome.filter fun u => u != t
                          streamList := x.tier.streamList.filter fun u => u != t } }

/-- The release transition: any state to BLANK (R104). It is no write, so LAST_SAILING stays. -/
def Dev.releaseTile (d : Dev) (h : Half) (t : Nat) : Dev :=
  if (d.tile h t).state = .blank then (d.dropTile h t).setTile h t { d.tile h t with pinned := false, stream := false }
  else (d.dropTile h t).setTile h t { d.tile h t with
    state := .blank, nand := BitVec.ofNat 36 noNand, frame := 0, pinned := false, stream := false }

/-- A tile becomes LOST: `TILE_LOST`, and a General Media event (R104). -/
def Dev.loseTile (d : Dev) (h : Half) (t : Nat) : Dev :=
  let e := d.tile h t
  if e.state = .blank ∨ e.state = .lost then d
  else
    let d := (d.dropTile h t).setTile h t { e with state := .lost, nand := BitVec.ofNat 36 noNand, frame := 0 }
    (d.raise h pgMANF .tileLost (tileNo h t)).eventAt .generalMedia (lineOf h t 0) 3

/-! ### Last Ferry's readiness -/

/-- Stripes of the half's evacuation reserve, in whatever state (R244, R246). -/
def Dev.reserveStripes (d : Dev) (h : Half) : List (Nat × Stripe) :=
  (d.half h).flash.stripes.filter fun e => e.2.use == 3 && e.2.state != .bad

/-- Last Ferry is ready (R42, R246): the sequencer has passed its self-check, every reserve stripe is erased and checked,
the reserve holds 1.25 × the dirty budget, and the budget is at most `MAX_BUDGET_GIB`. -/
def Dev.lfReadyNow (d : Dev) (h : Half) : Bool :=
  let x := d.half h
  let r := d.reserveStripes h
  x.flash.formatted && x.pwr.started && !x.pwr.rearm && r.all (fun e => e.2.state == .reserve && e.2.ready)
    && decide (d.budget h * 5 / 4 ≤ r.length * (x.flash.pages / max 1 x.flash.bits))
    && decide (d.fld h pgTIER 0x040 15 0 ≤ x.flash.maxBudget)

/-- Follow Last Ferry's readiness. -/
def Dev.lfNote (d : Dev) (h : Half) : Dev :=
  let r := d.lfReadyNow h
  if r = (d.half h).sail.lfReady then d else d.setArm h r (d.half h).sail.dirtyOk

end Sys2Proof.Machine
end

