-- ==== Sys2Proof/Machine/Tier.lean ====
section
/-! DEFINITION. Chapter 04: promotion (R105, R106), re-homing (R330), write-back (R107, R108), eviction (R110), the
formatter and the age clock (R97, R101), stream windows (R116), and tier commands (R118 to R121). -/

namespace Sys2Proof.Machine

/-! ### Ends of transitions -/

/-- The erase walk makes a tile LOST when its transition ends (R104, R275). -/
def Dev.afterMove (d : Dev) (h : Half) (t : Nat) : Dev :=
  if (d.tile h t).state != .blank && (d.kslot h (d.tile h t).slot.toNat).walking then d.loseTile h t else d

/-- Change, and drop, a promotion. -/
def Dev.updPromo (d : Dev) (h : Half) (t : Nat) (f : Promo → Promo) : Dev :=
  d.upd h fun x => { x with tier := { x.tier with promos := x.tier.promos.map fun p => if p.tile = t then f p else p } }
def Dev.dropPromo (d : Dev) (h : Half) (t : Nat) : Dev :=
  d.upd h fun x => { x with tier := { x.tier with promos := x.tier.promos.filter fun p => p.tile != t } }

/-! ### Promotion and re-homing -/

/-- A tile image passes its CMAC under a key that serves (R105 step 6). -/
def Dev.imgOk (d : Dev) (h : Half) (i : TileImg) : Bool :=
  let k := d.kslot h i.slot.toNat
  k.serves i.phase && tileCmac k.cmac i == i.cmac

/-- Write a tile's lines to a frame with the tags of R93 (R105 step 7, R218). -/
def Dev.writeTile (d : Dev) (h : Half) (f t : Nat) (i : TileImg) (twin : Bool) : Dev :=
  let k := d.kslot h i.slot.toNat
  let p := k.pair i.phase
  let xs := tileXts false p.1 p.2 k.gen i.phase i.tile i.data
  (((List.range 1024).zip xs).foldl (fun d e =>
    let line := lineOf h t e.1
    let tags := mkTags (BitVec.ofNat 18 i.sailing) 0 i.slot i.phase (i.poison.getLsbD e.1) 0xF twin i.ld
    d.putFrameLine h f e.1 (encodeLine line (lineXts true p.1 p.2 k.gen i.phase line e.2) tags)) d).wrap64 h
      (pgMEMC (frameSub f / 2)) 0x080 1024

/-- A promotion or a reload ends with its tile in a frame. -/
def Dev.promoEnd (d : Dev) (h : Half) (p : Promo) (st : TileState) : Dev :=
  let e := d.tile h p.tile
  let d := (d.dropPromo h p.tile).setTile h p.tile { e with state := st, frame := BitVec.ofNat 27 (p.frame.getD 0) }
  let move (b : EvictBuf) : EvictBuf := if lineTile b.line = p.tile then { b with frame := p.frame.getD 0 } else b
  let d := if p.rehome then
      (d.upd h fun x => { x with land := { x.land with buf := x.land.buf.map move } }).landCleanTile h p.tile
    else d.wrap64 h pgTIER 0x088
  let d := if 0 < p.poisoned then d.tilePoisoned h p.tile p.poisoned e.ld.toNat
    else if p.twin || p.retried then
      let q := d.ueFound h 10 (tileNo h p.tile) 0 0 3 (some e.ld.toNat)
      q.2.ueEnd h q.1 (some (if p.twin then 2 else 1))
    else d
  d.afterMove h p.tile

/-- A promotion or a reload ends with its tile LOST (R106 step 3). -/
def Dev.promoLose (d : Dev) (h : Half) (p : Promo) : Dev :=
  let e := d.tile h p.tile
  let d := d.dropPromo h p.tile
  let d := match p.frame with
    | some f => d.freeFrame h f
    | none => d
  (d.loseTile h p.tile).tilePoisoned h p.tile 1024 e.ld.toNat

/-- One line of a recalled tile: as the twin answers it, or poisoned. The last one ends the promotion DRAM_DIRTY. -/
def Dev.promoAnswer (d : Dev) (h : Half) (line : Nat) (ans : Option SLine) : Dev :=
  let t := lineTile line
  match (d.half h).tier.promos.find? fun p => p.tile == t && p.recalling.contains line with
  | none => d
  | some p =>
    let e := d.tile h t
    let f := p.frame.getD 0
    let bad := encodeLine line 0 (mkTags (e.lastSailing.setWidth 18) 0 e.slot e.phase true 0xF false e.ld)
    let d := d.putFrameLine h f (lineJ line) (ans.getD bad)
    let d := if ans.isNone then d.poisoned h line else d
    let p' := { p with recalling := p.recalling.erase line, poisoned := p.poisoned + bnum ans.isNone }
    let d := d.updPromo h t fun _ => p'
    if p'.recalling.isEmpty then d.promoEnd h p' .dramDirty else d

/-- Send the recalls of a tile that waits for its seal. -/
def Dev.promoRecall (d : Dev) (h : Half) (p : Promo) : Dev :=
  let f := (d.half h).fery
  let go := p.recalling.filter fun l => !(f.recalls.any fun q => q.line == l && q.why != .read) && !(f.recallWait.any fun q => q.line == l && q.why != .read)
  go.foldl (fun d l => d.recall h l (d.tile h p.tile).lastSailing.toNat (if p.rehome then .rehome else .promo)) d

/-- Every line of a re-homed tile that has no dirty Landing copy is poisoned (R329); the others are written over. -/
def Dev.rehomePoison (d : Dev) (h : Half) (p : Promo) : Dev :=
  let t := p.tile
  let e := d.tile h t
  let f := p.frame.getD 0
  let kept := ((d.landOfTile h t).filter fun s => s.2.dirty).map fun s => landLine h s.1 s.2.tag
  let r := p.recalling.foldl (fun a line =>
    let bad := encodeLine line 0 (mkTags (e.lastSailing.setWidth 18) 0 e.slot e.phase true 0xF false e.ld)
    let d := a.2.putFrameLine h f (lineJ line) bad
    if kept.contains line then (a.1, d) else (a.1 + 1, d.poisoned h line)) (p.poisoned, d)
  let p' := { p with recalling := [], poisoned := r.1 }
  (r.2.updPromo h t fun _ => p').promoEnd h p' .dramDirty

/-- Move on the tiles that come from the twin: start the recalls once a frame is there and the seal-wait is met, and end
without them where no recall is possible (R106, R143, R329, R330). -/
def Dev.promoKick (d : Dev) (h : Half) : Dev :=
  ((d.half h).tier.promos.filter fun p => p.twin && p.frame.isSome).foldl (fun d p =>
    let last := (d.tile h p.tile).lastSailing
    let fresh := p.recalling.isEmpty
    let p := if fresh then { p with recalling := (List.range 1024).map (lineOf h p.tile) } else p
    let d := if fresh then d.updPromo h p.tile fun _ => p else d
    let out := (d.half h).fery.recalls ++ (d.half h).fery.recallWait
    let sent := p.recalling.any fun l => out.any fun q => q.line == l && q.why != .read
    if sent then d
    else if d.recallCan h last then (if d.mirroredOk h last then d.promoRecall h p else d)
    else if p.rehome then d.rehomePoison h p
    else d.promoLose h p) d

/-- A tile read that failed: one retried read, then the twin, else LOST (R106). -/
def Dev.promoFail (d : Dev) (h : Half) (p : Promo) : Dev :=
  if !p.retried then d.updPromo h p.tile fun q => { q with retried := true }
  else if d.recallCan h (d.tile h p.tile).lastSailing then d.updPromo h p.tile fun q => { q with twin := true }
  else d.promoLose h p

/-! ### Retirement (R119) -/

/-- The limits of R112 and R114 hold for the frame pool. -/
def Dev.poolLimits (d : Dev) (h : Half) : Bool :=
  let floors := lsum ((d.allLds.filter fun e => d.ldIn e.1 e.2 h).map fun e => (d.reg e.1 (pgLDP e.2) 0x068).toNat)
  decide (2 * d.budget h ≤ d.poolFrames h) && decide (4 * floors ≤ d.poolFrames h)

/-- A frame leaves the pool for good; `POOL_SHRUNK` where that breaks a limit. Its tile's LDs take a DRAM record (R78). -/
def Dev.retireSet (d : Dev) (h : Half) (f : Nat) : Dev :=
  let was := d.poolLimits h
  let d := (d.freeFrame h f).setFrame h f { state := .retired, tile := 0 }
  if was && !(d.poolLimits h) then d.raise h pgTIER .poolShrunk else d

/-- Rank and bank of a frame (R96). -/
def Dev.frameBank (d : Dev) (h : Half) (f : Nat) : Nat := frameLocal f % (d.ranks h (frameSub f / 2) * 32)

/-- A free frame for a retirement copy, in another bank. -/
def Dev.otherBank (d : Dev) (h : Half) (f : Nat) (s : FrameState) (same : Bool) : Option Nat :=
  let ks := if same then [frameSub f] else d.subs h
  ks.findSome? fun k => (d.subFrame h k s (if k = frameSub f then some (d.frameBank h f) else none)).map (·.2)

/-- How far the retirement of one frame has come. -/
inductive RetRes where
  | done | wait | refused
  deriving DecidableEq, Repr

/-- Retire one frame, or start its copy (R119). -/
def Dev.retireGo (d : Dev) (h : Half) (f : Nat) : RetRes × Dev :=
  let e := d.frame h f
  let bad := [SubState.failed, .disabled, .absent].contains (d.sub h (frameSub f)).state
  match e.state with
  | .retired => (.done, d)
  | .freeFmt | .freeRaw => (.done, d.retireSet h f)
  | .diag =>
    if bad then (.done, d.retireSet h f)
    else if (d.half h).ecc.diagFrames.isEmpty then (.refused, d)
    else match (d.otherBank h f .freeRaw true).orElse fun _ => d.otherBank h f .freeFmt true with
      | none => (.refused, d)
      | some n =>
        let d := d.setFrame h n { state := .diag, tile := e.tile }
        (.done, (d.upd h fun x => { x with ecc := { x.ecc with
          diagFrames := x.ecc.diagFrames.map fun g => if g = f then n else g } }).retireSet h f)
  | .used =>
    if bad then (.done, d.setFrame h f { state := .retired, tile := 0 })
    else
      let t := e.tile
      let m := d.tile h t
      if (d.half h).tier.copying.isSome || m.state == .rising || m.state == .sinking || (d.half h).fery.capturing.contains t
          || (d.half h).ecc.repairs.any fun r => lineTile r.line == t then (.wait, d)
      else match d.otherBank h f .freeRaw false with
        | none => (.wait, d)
        | some n =>
          let d := d.setFrame h n { state := .used, tile := t }
          (.wait, d.upd h fun x => { x with tier := { x.tier with copying := some { old := f, new := n, tile := t } } })

/-- Status of a tier command, and its end. -/
def Dev.tierStatus (d : Dev) (h : Half) (st : Nat) : Dev :=
  d.setReg h pgTIER 0x07C (st * 2 ^ 28 + ((d.half h).tier.cmd.map (·.left.length)).getD 0)
def Dev.tierEnd (d : Dev) (h : Half) (st : Nat) : Dev :=
  ((d.upd h fun x => { x with tier := { x.tier with cmd := none } }).tierStatus h st).raise h pgTIER .tierCmdDone

/-- Retire the frames a command has left, until one must wait. -/
def Dev.retireRun (h : Half) : List Nat → Dev → Dev
  | [], d => d.tierEnd h 2
  | f :: fs, d =>
    let r := d.retireGo h f
    let keep (d : Dev) (l : List Nat) := (d.upd h fun x => { x with tier := { x.tier with
      cmd := x.tier.cmd.map fun c => { c with left := l } } }).tierStatus h 1
    match r.1 with
    | .done => Dev.retireRun h fs (keep r.2 fs)
    | .wait => keep r.2 (f :: fs)
    | .refused => r.2.tierEnd h 6

/-! ### Sinks (R107, R108) -/

/-- A tile that a sink may take now. -/
def Dev.sinkable (d : Dev) (h : Half) (t : Nat) : Bool :=
  let e := d.tile h t
  let p := (d.half h).pwr.state
  e.state == .dramDirty && (d.kslot h e.slot.toNat).serves e.phase && (((d.half h).tier.copying.map (·.tile)) != some t)
    && !((d.half h).fery.capturing.contains t) && decide ((d.half h).tier.sinks.length < 4096)
    && (p == .on || p == .trim)

/-- Sink steps 1 to 3: dirty Landing lines go to the frame, the lines are read and decrypted, and the image is built
under the tile's key with the sailing current when the last line has been read (R92, R108). -/
def Dev.tileImage (d : Dev) (h : Half) (t : Nat) : TileImg × Dev :=
  let d := d.landCleanTile h t
  let e := d.tile h t
  let f := e.frame.toNat
  let r := (List.range 1024).foldl (fun a j =>
    let line := lineOf h t j
    let p := a.2.2.frameRead h f j line {}
    match p.1.verdict with
    | .bad _ =>
      let d := if (p.2.repairOf h line).isSome then p.2 else p.2.repairStart h line f p.1 []
      (0 :: a.1, a.2.1 ||| BitVec.twoPow 1024 j, d)
    | _ => ((p.2.plain h line p.1).getD 0 :: a.1,
        if p.1.tags.poison then a.2.1 ||| BitVec.twoPow 1024 j else a.2.1, p.2)) (([] : List LineData), (0 : BitVec 1024), d)
  let d := r.2.2
  let k := d.kslot h e.slot.toNat
  let pr := k.pair e.phase
  let i : TileImg := {
    data := tileXts true pr.1 pr.2 k.gen e.phase (tileNo h t) r.1.reverse
    tile := tileNo h t, sailing := (d.half h).sail.current, slot := e.slot, phase := e.phase, ld := e.ld
    wcount := min ((((d.nandImg h e.nand.toNat).map (·.wcount)).getD 0) + 1) 0xFFFFFFFF, poison := r.2.1 }
  ({ i with cmac := tileCmac k.cmac i }, d)

/-- Start a sink, where a page is to be had. -/
def Dev.sinkStart (d : Dev) (h : Half) (t : Nat) : Option Dev :=
  if !(d.sinkable h t) then none
  else match d.sinkPage h 0 with
    | none => none
    | some (a, d) =>
      let d := d.setTile h t { d.tile h t with state := .sinking }
      let p := d.tileImage h t
      some (p.2.upd h fun x => { x with tier := { x.tier with sinks := x.tier.sinks ++ [{ tile := t, loc := a, img := p.1 }] } })

/-- The tile is eligible for write-back (R107). -/
def Dev.wbEligible (d : Dev) (h : Half) (t : Nat) : Bool :=
  d.sinkable h t && ((d.tile h t).stream || decide (d.lowMark h < d.dirtyTiles h)
    || decide (d.fld h pgTIER 0x044 23 16 ≤ d.ageOf h t))

/-- The pick of a walk of the frame table in batches of 4,096 frames from a cursor batch, greatest age first in a batch
(R107, R110): the tile and its batch. -/
def Dev.walkPick (d : Dev) (h : Half) (cursor : Nat) (ok : Nat → Bool) : Option (Nat × Nat) :=
  let l := ((d.half h).tier.ftab.filter fun e => e.2.state == .used && ok e.2.tile).map fun e => (e.1 / 4096, e.2.tile)
  let rank (b : Nat) : Nat := if cursor ≤ b then b - cursor else b + 32768 - cursor
  match l.foldl (fun (m : Option Nat) e => match m with
      | none => some (rank e.1)
      | some r => some (min r (rank e.1))) none with
  | none => none
  | some r =>
    (l.filter fun e => rank e.1 == r).foldl (fun m e => match m with
      | none => some (e.2, e.1)
      | some b => if d.ageOf h b.1 < d.ageOf h e.2 then some (e.2, e.1) else some b) none

/-- The sink of a tile ends (R104, R108 step 6). -/
def Dev.sinkEnd (d : Dev) (h : Half) (k : Sink) (ok : Bool) (plane : Nat) : Dev :=
  let d := d.upd h fun x => { x with tier := { x.tier with sinks := x.tier.sinks.erase k } }
  let e := d.tile h k.tile
  if !ok then
    let d := d.programFail h k.loc plane
    (if e.state = .sinking then d.setTile h k.tile { e with state := .dramDirty } else d).afterMove h k.tile
  else
    let d := (d.putNand h k.loc k.img).nandLive h k.loc
    if e.state = .sinking then
      let d := (d.nandStale h e.nand.toNat).wrap64 h pgTIER 0x080
      (d.setTile h k.tile { e with state := if k.touched then .dramDirty else .dramClean, nand := BitVec.ofNat 36 k.loc }).afterMove
        h k.tile
    else d.nandStale h k.loc

/-! ### Tier commands (R118) -/

/-- The running tier command goes on, or ends. -/
def Dev.tierStep (d : Dev) (h : Half) : Dev :=
  match (d.half h).tier.cmd with
  | none => d
  | some c =>
    let t := c.arg % 2 ^ 35
    let e := d.tile h t
    if c.op = 1 then
      match e.state with
      | .blank | .lost | .dramClean | .dramDirty | .sinking => d.tierEnd h 2
      | .nandOnly => d.promote h t
      | .rising | .dark => d
    else if c.op = 3 then
      match e.state with
      | .dark => d.tierEnd h 6
      | .sinking => d
      | .dramDirty => (d.sinkStart h t).getD d
      | _ => d.tierEnd h 2
    else if c.op = 4 then
      match e.state with
      | .dark => d.tierEnd h 6
      | .blank | .nandOnly | .lost => d.tierEnd h 2
      | .rising | .sinking => d
      | .dramDirty | .dramClean =>
        if e.pinned || decide (d.ldFrames h e.ld.toNat ≤ d.ldReg e.ld.toNat 0x068) then d.tierEnd h 6
        else if e.state = .dramDirty then (d.sinkStart h t).getD d
        else if d.inFabric h t || (d.half h).ecc.repairs.any (fun r => lineTile r.line == t)
            || (((d.half h).tier.copying.map (·.tile)) == some t) || (d.half h).fery.capturing.contains t then d
        else (d.evict h t).tierEnd h 2
    else Dev.retireRun h c.left d

/-- After anything that may move a tile: held requests, tiles that come from the twin, tier commands. -/
def Dev.settleT (d : Dev) : Dev :=
  let d := d.settle.eachHalf fun d h => (d.promoKick h).tierStep h
  d.settle

/-- A meaning of the tier engine. -/
def onDevT (f : Dev → Dev) (s : State) : Out := onDev (fun d => (f d).settleT) s

/-- Pinned tiles of a half. -/
def Dev.pinned (d : Dev) (h : Half) : Nat := ((d.half h).tier.manf.filter fun e => e.2.pinned).length

/-- A write of `TIER.CMD` (R118): none where it is refused. -/
def Dev.tierCmd (h : Half) (v : Nat) (d : Dev) : Option Dev :=
  let op := v % 16
  let arg := d.reg64 h pgTIER 0x070
  let start (d : Dev) (left : List Nat) : Dev := (d.upd h fun x => { x with tier := { x.tier with
    cmd := some { op := op, arg := arg, left := left } } }).tierStatus h 1
  if (d.half h).tier.cmd.isSome || op = 0 || 6 < op then none
  else if op ≤ 4 then
    let t := arg % 2 ^ 35
    let e := d.tile h t
    if bitsOf arg 35 35 != h.num || (d.half h).tier.backed ≤ t then some (d.tierEnd h 3)
    else if op = 1 then
      if !e.pinned && d.poolFrames h < 8 * (d.pinned h + 1) then some (d.tierEnd h 4)
      else some (start (d.setTile h t { e with pinned := true }) [])
    else if op = 2 then some ((d.setTile h t { e with pinned := false }).tierEnd h 2)
    else some (start d [])
  else if op = 5 then
    let f := arg % 2 ^ 27
    let k := frameSub f
    let old := (d.half h).tier.retired
    if 24 ≤ k || (d.chan h (k / 2)).framesPerSub ≤ frameLocal f then some (d.tierEnd h 3)
    else if d.poolOf h k ≤ frameLocal f && (d.frame h f).state != .diag then some (d.tierEnd h 6)
    else if old.contains f || (d.frame h f).state = .retired then some (d.tierEnd h 2)
    else if 65536 ≤ old.length then some (d.tierEnd h 5)
    else
      let d := d.upd h fun x => { x with tier := { x.tier with retired := f :: x.tier.retired } }
      let d := if (d.frame h f).state = .used then d.eventAt .dram (lineOf h (d.frame h f).tile 0) (d.frameLoc h f 0) else d
      some (start d [f])
  else
    let k := bitsOf arg 20 16
    let rb := bitsOf arg 11 8 * 32 + bitsOf arg 4 0
    let nb := d.ranks h (k / 2) * 32
    let code := 2 ^ 27 + k * 512 + rb
    if 24 ≤ k || nb ≤ rb || (d.chan h (k / 2)).framesPerSub = 0 then some (d.tierEnd h 3)
    else if !((d.half h).tier.retired.contains code) && decide (65536 ≤ (d.half h).tier.retired.length) then some (d.tierEnd h 5)
    else
      let fs := (List.range ((d.poolOf h k + nb - 1 - rb) / nb)).map fun r => k * 2 ^ 22 + r * nb + rb
      let d := d.upd h fun x => { x with tier := { x.tier with
        retired := if x.tier.retired.contains code then x.tier.retired else code :: x.tier.retired } }
      some (start d fs)

/-- A tier command of an opcode. -/
def tierWrite (org : Origin) (h : Half) (op : Nat) (s : State) : Out :=
  onDevT (fun d => d.command org h pgTIER 0x078 op (Dev.tierCmd h op)) s

/-- `PIN_TILE`, `UNPIN_TILE`, `SINK_TILE`, `EVICT_TILE`, `RETIRE_FRAME`, `RETIRE_BANK` (R118, R119): the opcode is written
to `TIER.CMD`, and `CMD_ARG` holds the argument. -/
def execPinTile (org : Origin) (h : Half) (s : State) : Out := tierWrite org h 1 s
def execUnpinTile (org : Origin) (h : Half) (s : State) : Out := tierWrite org h 2 s
def execSinkTile (org : Origin) (h : Half) (s : State) : Out := tierWrite org h 3 s
def execEvictTile (org : Origin) (h : Half) (s : State) : Out := tierWrite org h 4 s
def execRetireFrame (org : Origin) (h : Half) (s : State) : Out := tierWrite org h 5 s
def execRetireBank (org : Origin) (h : Half) (s : State) : Out := tierWrite org h 6 s

/-- Copy a frame's lines to another, correcting each; an uncorrectable one is copied poisoned and repaired (R119). -/
def Dev.copyFrame (d : Dev) (h : Half) (c : RetireCopy) : Dev :=
  let js := ((d.half h).tier.dram.filter fun e => e.1 / 1024 == c.old).map fun e => e.1 % 1024
  js.foldl (fun d j =>
    let line := lineOf h c.tile j
    let p := d.frameRead h c.old j line {}
    let fmt := p.1.tags == ({} : Tags)
    match p.1.verdict with
    | .bad _ =>
      let d := p.2.repairStart h line c.old p.1 []
      d.putFrameLine h c.new j (d.frameLine h c.old j)
    | _ => if fmt then p.2 else p.2.putFrameLine h c.new j p.1.fixed) d

/-- `RETIREMENT_COPY_DONE` (R119): FRAME moves, the old frame is retired, and the command goes on. -/
def execRetirementCopyDone (h : Half) (s : State) : Out :=
  onDevT (fun d => match (d.half h).tier.copying with
    | none => d
    | some c =>
      let d := (d.bufIssueTile h c.tile).copyFrame h c
      let d := d.setTile h c.tile { d.tile h c.tile with frame := BitVec.ofNat 27 c.new }
      (d.upd h fun x => { x with tier := { x.tier with copying := none } }).retireSet h c.old) s

/-! ### Promotion -/

/-- `PROMOTION_READ_DONE` (R105 steps 2 to 6, R106): the read of the oldest promotion completes; `ok` is the LDPC
decoder's answer, and the CMAC is checked here. -/
def execPromotionReadDone (h : Half) (ok : Bool) (s : State) : Out :=
  onDevT (fun d => match (d.half h).tier.promos.find? fun p => p.frame.isSome && p.img.isNone && !p.twin with
    | none => d
    | some p =>
      let a := (d.tile h p.tile).nand.toNat
      let i := d.nandImg h a
      let d := d.wrap64 h (pgFLSH (nandIsle a)) 0x0E0
      let d := if ok && i.isSome then d else d.sat h (pgFLSH (nandIsle a)) 0x100
      match i with
      | some i => if ok && d.imgOk h i then d.updPromo h p.tile fun q => { q with img := some i } else d.promoFail h p
      | none => d.promoFail h p) s

/-- `PROMOTION_FRAME_WRITTEN` (R105 steps 7 and 8): the tile is DRAM_CLEAN, and held requests go on. -/
def execPromotionFrameWritten (h : Half) (s : State) : Out :=
  onDevT (fun d => match (d.half h).tier.promos.find? fun p => p.img.isSome with
    | none => d
    | some p =>
      match p.img, p.frame with
      | some i, some f => (d.writeTile h f p.tile i false).promoEnd h p .dramClean
      | _, _ => d) s

/-- `RE_HOMING` (R330): the head of the re-homing queue takes a new frame, and its source is chosen. -/
def execReHoming (h : Half) (s : State) : Out :=
  onDevT (fun d => match (d.half h).tier.rehome.find? fun t => (d.tile h t).state == .dark with
    | none => d.upd h fun x => { x with tier := { x.tier with rehome := [] } }
    | some t =>
      let e := d.tile h t
      let q := d.takeFrame h e.ld.toNat .freeRaw .freeFmt true
      let d := match q.1 with
        | some f => q.2.setFrame h f { state := .used, tile := t }
        | none => q.2
      d.upd h fun x => { x with tier := { x.tier with
        rehome := x.tier.rehome.erase t
        promos := x.tier.promos ++ [{ tile := t, frame := q.1, rehome := true, twin := !(d.nandFresh h e) }] } }) s

/-! ### Write-back and eviction -/

/-- `SINK_START` (R107): the next eligible tile, of the stream list first, then of the walk. -/
def execSinkStart (h : Half) (s : State) : Out :=
  onDevT (fun d =>
    match (d.half h).tier.streamList.find? fun t => d.sinkable h t with
    | some t => (d.sinkStart h t).getD d
    | none => match d.walkPick h (d.half h).tier.wbCursor (d.wbEligible h) with
      | some (t, b) => match d.sinkStart h t with
        | some d => d.upd h fun x => { x with tier := { x.tier with wbCursor := b } }
        | none => d
      | none => d) s

/-- `SINK_PROGRAM_DONE` (R108): the program of a tile's sink ends; `plane` names the block of a failed one. -/
def execSinkProgramDone (h : Half) (t : Nat) (ok : Bool) (plane : Nat) (s : State) : Out :=
  onDevT (fun d => match (d.half h).tier.sinks.find? fun k => k.tile == t with
    | none => d
    | some k => (d.wrap64 h (pgFLSH (nandIsle k.loc)) 0x0E8).sinkEnd h k ok (plane % 4)) s

/-- Free frames of a half. -/
def Dev.freeFrames (d : Dev) (h : Half) : Nat := d.freeFmt h + d.freeRaw h

/-- `EVICTION` (R110): one eligible tile goes, while the free frames are low: the stream list first, then the walk. -/
def execEviction (h : Half) (s : State) : Out :=
  onDevT (fun d =>
    let low := (d.reg h pgTIER 0x068).toNat
    let on := decide (d.freeFrames h < low) || ((d.half h).tier.evicting && decide (d.freeFrames h < low + 16384))
    let d := d.upd h fun x => { x with tier := { x.tier with evicting := on } }
    if !on then d
    else match (d.half h).tier.streamList.find? fun t => d.evictable h t with
      | some t => (d.evict h t).upd h fun x => { x with tier := { x.tier with streamList := x.tier.streamList.erase t } }
      | none => match d.walkPick h (d.half h).tier.evCursor (d.evictable h) with
        | some (t, b) => (d.evict h t).upd h fun x => { x with tier := { x.tier with evCursor := b } }
        | none => d) s

/-- `FRAME_FORMATTED` (R97): a FREE_RAW frame of a subchannel is formatted. -/
def execFrameFormatted (h : Half) (k : Nat) (s : State) : Out :=
  onDevT (fun d => if !(d.subOk h k) || 24 ≤ k then d else match d.subFrame h k .freeRaw with
    | some (_, f) => d.formatFrame h f
    | none => d) s

/-- `AGE_TICK` (R101): the age clock advances; every 64th tick the sweeper holds the ages at 191 at most. -/
def execAgeTick (h : Half) (s : State) : Out :=
  onDevT (fun d => d.upd h fun x =>
    let c := x.tier.ageClock + 1
    let cap (e : ManfEntry) : ManfEntry :=
      if TileStateResident e.state && decide (191 < (c - e.age).toNat) then { e with age := c - 191 } else e
    { x with tier := { x.tier with
      ageClock := c
      manf := if c.toNat % 64 = 0 then x.tier.manf.map fun e => (e.1, cap e.2) else x.tier.manf } }) s

/-- `MANIFEST_CHECKPOINT` (R103): the block changed longest ago is written to NAND. -/
def execManifestCheckpoint (h : Half) (s : State) : Out :=
  onDevT (fun d => match (d.half h).tier.changed with
    | [] => d
    | b :: bs =>
      let d := d.upd h fun x => { x with tier := { x.tier with
        changed := bs
        ckptMark := max x.tier.ckptMark x.sail.current
        ckpt := (x.tier.ckpt.filter fun e => decide (e.1 / 4096 < b)) ++ (x.tier.manf.filter fun e => e.1 / 4096 == b)
          ++ x.tier.ckpt.filter fun e => decide (b < e.1 / 4096) } }
      d.dirtyNote h) s

/-! ### Stream windows (R115, R116) -/

/-- Open a window with the slot's settings. -/
def Dev.streamOpen (h : Half) (c k : Nat) (d : Dev) : Option Dev :=
  let pg := pgLDP c
  let ctl := (d.reg h pg (0x14C + 16 * k)).toNat
  let first := d.reg64 h pg (0x140 + 16 * k) / 65536
  let n := (d.reg h pg (0x148 + 16 * k)).toNat
  let ahead := bitsOf ctl 27 16
  let desc := ctl.testBit 30
  let fail (st : Nat) : Option Dev := some (d.updLd h c fun x => { x with
    streams := lmod x.streams k fun s => { s with isOpen := false, status := st } })
  let lo := if desc then first + 1 - n else first
  match (d.extents h c).find? fun e => !e.releasing && decide (e.lda * 1024 ≤ lo) && decide (lo + n ≤ (e.lda + e.len) * 1024) with
  | none => fail 4
  | some e =>
    if n = 0 || ahead < 16 || (desc && first + 1 < n) then fail 4
    else
      let home := homeOfUnit e.dpa
      let ws := d.windows home
      if 256 ≤ ws.length || d.poolFrames home < 32 * (lsum (ws.map fun w => w.2.2.ahead) + ahead) then fail 3
      else
        let s : Stream := { isOpen := true, descend := desc, ahead := ahead, tiles := n, status := 1, lastUse := d.uptime
                            start := e.dpa * 1024 + (first - e.lda * 1024) }
        some ((d.setStream h c k s).windowFill home s)

/-- Close a window; a tile that another window has passed is now marked (R117). -/
def Dev.streamEnd (d : Dev) (h : Half) (c k st : Nat) : Dev :=
  let s := (d.ldc h c).streams.getD k {}
  if !s.isOpen then d
  else
    let d := d.setStream h c k { s with isOpen := false, status := st }
    let home := lineHalf (s.start * 1024)
    ((d.half home).tier.manf.filter fun e => (s.posOf (tileNo home e.1)).isSome).foldl (fun d e =>
      let by2 := d.allLds.any fun l => (d.ldc l.1 l.2).streams.any fun w => (w.isOpen || w.status == 2)
        && match w.posOf (tileNo home e.1) with
          | some p => decide (p < w.pos)
          | none => false
      if by2 then d.markStream home e.1 else d) d

/-- `STREAM_OPEN` (R116): OPEN = 1 written over the slot's current settings. -/
def execStreamOpen (org : Origin) (h : Half) (c k : Nat) (s : State) : Out :=
  onDevT (fun d => if 4 ≤ k || 64 ≤ c then d else
    d.command org h (pgLDP c) (0x14C + 16 * k) (2 ^ 31 + (d.reg h (pgLDP c) (0x14C + 16 * k)).toNat) (Dev.streamOpen h c k)) s

/-- `STREAM_CLOSE` (R116): OPEN = 0. -/
def execStreamClose (org : Origin) (h : Half) (c k : Nat) (s : State) : Out :=
  onDevT (fun d => if 4 ≤ k || 64 ≤ c then d else
    d.command org h (pgLDP c) (0x14C + 16 * k) (d.reg h (pgLDP c) (0x14C + 16 * k)).toNat fun d => some (d.streamEnd h c k 0)) s

/-- `STREAM_IDLE_CLOSE` (R116): no access came for 1 s. -/
def execStreamIdleClose (h : Half) (c k : Nat) (s : State) : Out :=
  onDevT (fun d =>
    let w := (d.ldc h c).streams.getD k {}
    if !w.isOpen then d
    else (d.streamEnd h c k 5).raise (lineHalf (w.start * 1024)) pgTIER .streamClosed (d.ldNum h c) k) s

/-! ### `MANF.PEEK` (R121) -/

/-- STATE codes (R100), and the 128 bits of an entry. -/
def tileCode : TileState → Nat
  | .blank => 0 | .dramClean => 1 | .dramDirty => 2 | .nandOnly => 3 | .rising => 4 | .sinking => 5 | .dark => 6 | .lost => 7
def ManfEntry.bits (e : ManfEntry) : Nat :=
  e.lastSailing.toNat * 2 ^ 100 + e.nand.toNat * 2 ^ 64 + e.ld.toNat * 2 ^ 51 + bnum e.phase * 2 ^ 50 + e.slot.toNat * 2 ^ 40
    + e.age.toNat * 2 ^ 32 + bnum e.stream * 2 ^ 31 + bnum e.pinned * 2 ^ 30 + e.frame.toNat * 8 + tileCode e.state

/-- Copy a tile's entry into `PEEK_ENTRY`. -/
def Dev.peek (h : Half) (v : Nat) (d : Dev) : Option Dev :=
  let b := (d.tile h (v % 2 ^ 35)).bits
  some ((List.range 4).foldl (fun d n => d.setReg h pgMANF (0x0B0 + 4 * n) (b / 2 ^ (32 * n) % 2 ^ 32))
    (d.setReg64 h pgMANF 0x0A0 (v % 2 ^ 36)))

/-- `MANF_PEEK` (R121): a read selector, not journaled (R354). -/
def execManfPeek (org : Origin) (h : Half) (tile : Nat) (s : State) : Out :=
  onDev (fun d => d.command org h pgMANF 0x0A0 tile (Dev.peek h tile) true false) s

end Sys2Proof.Machine
end

