-- ==== Sys2Proof/Machine/Ecc.lean ====
section
/-! DEFINITION. Chapter 05: patrol scrub (R140, R141), the repeat filter's expiry (R139), repairs (R142, R143), the `ECCD`
commands (R148, R149) and the scoresheet's selector and acknowledgement (R146, R151). -/

namespace Sys2Proof.Machine

/-! ### Scrub -/

/-- The next line that scrub reads in a subchannel from a position frame × 1,024 + line: USED and FREE_FMT frames, and the
region frames (R140). -/
def Dev.scrubNext (d : Dev) (h : Half) (k pos : Nat) : Option Nat :=
  let lo := pos / 1024
  let pool := d.poolOf h k
  let own := ((d.half h).tier.ftab.filter fun e => frameSub e.1 == k && decide (lo ≤ frameLocal e.1) && decide (frameLocal e.1 < pool)
    && (e.2.state == .used || e.2.state == .freeFmt)).map fun e => frameLocal e.1
  let l := match own with
    | l :: _ => some l
    | [] => if max lo pool < (d.chan h (k / 2)).framesPerSub then some (max lo pool) else none
  l.map fun l => if l = lo then pos else l * 1024

/-- An uncorrectable line found by scrub (R141, R331): a dirty Landing line is written back as the repair; a free frame goes
to FREE_RAW. -/
def Dev.scrubBad (d : Dev) (h : Half) (f j : Nat) (res : LineRes) : Dev :=
  let e := d.frame h f
  if e.state = .freeFmt then
    let w := res.ueWord
    let p := d.ueFound h 0 (d.frameLoc h f j) w.1 w.2 res.cause none
    (p.2.freeFrame h f).ueEnd h p.1 (some 3)
  else
    let line := lineOf h e.tile j
    match d.landFind h line with
    | some (key, le) =>
      if le.dirty then
        let w := res.ueWord
        let p := d.ueFound h 0 (d.frameLoc h f j) w.1 w.2 res.cause (some (d.tile h e.tile).ld.toNat)
        (p.2.landClean h key le).ueEnd h p.1 (some 3)
      else if (d.repairOf h line).isSome then d else d.repairStart h line f res []
    | none => if (d.repairOf h line).isSome then d else d.repairStart h line f res []

/-- Read one line of a frame for scrub, with what the medium has flipped. -/
def Dev.scrubLine (d : Dev) (h : Half) (f j : Nat) (err : SLine) : Dev :=
  let e := d.frame h f
  let m := d.tile h e.tile
  if e.state = .used && !(TileStateResident m.state && m.frame.toNat == f) then d
  else
    let p := d.frameRead h f j (if e.state = .used then lineOf h e.tile j else fmtAddr f j) err
    match p.1.verdict with
    | .bad _ => p.2.scrubBad h f j p.1
    | _ => p.2

/-- Unit of a region frame by its place from the top of the subchannel's regions: Manifest region, frame table or staging
ring are told apart by the environment (R98, R144). -/
def Dev.scrubRegion (d : Dev) (h : Half) (k pos unit verdict cw sy : Nat) : Dev :=
  let loc := d.frameLoc h (k * 2 ^ 22 + pos / 1024) (pos % 1024)
  let u := min 3 (max 1 unit)
  if verdict = 1 then d.corrected h true u loc cw sy none none
  else if verdict = 2 then
    let p := d.ueFound h u loc cw sy 0 none
    p.2.ueEnd h p.1 (some 1)
  else d

/-- Scrub's period in ns. -/
def Dev.scrubNs (d : Dev) (h : Half) : Nat := d.fld h pgSCOR 0x040 7 0 * 3600000000000

/-- The pass ends when every subchannel has been read through; it is late when it took more than 110% of the period
(R140, R141). -/
def Dev.scrubPass (d : Dev) (h : Half) : Dev :=
  if (d.subs h).all fun k => (d.scrubNext h k (smGetD (d.half h).ecc.scrubPos k 0)).isNone then
    let late := decide (110 * d.scrubNs h < 100 * (d.uptime - (d.half h).ecc.scrubStart))
    let d := d.upd h fun x => { x with ecc := { x.ecc with scrubPos := [], scrubStart := d.uptime } }
    let d := d.setFld h pgSCOR 0x044 31 16 (d.fld h pgSCOR 0x044 31 16 + 1)
    let d := d.raise h pgSCOR .scrubPass
    if late then d.raise h pgSCOR .scrubLate else d
  else d

/-- `SCRUB_READ` (R140): the next line of a subchannel. `err` is what its bits have flipped; for a line of a DRAM region the
environment names the unit and the verdict. A subchannel more than an hour behind its schedule is boosted (R141). -/
def execScrubRead (h : Half) (k : Nat) (err : SLine) (unit verdict cw sy : Nat) (s : State) : Out :=
  onDevT (fun d =>
    if d.fld h pgSCOR 0x040 31 31 = 0 || !((d.subs h).contains k) || d.islandDark h 20 then d
    else
      let pos := smGetD (d.half h).ecc.scrubPos k 0
      match d.scrubNext h k pos with
      | none => d.scrubPass h
      | some p =>
        let total := (d.chan h (k / 2)).framesPerSub * 1024
        let behind := decide (d.scrubNs h / max 1 total * p + 3600000000000 < d.uptime - (d.half h).ecc.scrubStart)
        let d := d.updSub h k fun c => { c with scrubBoost := behind }
        let d := if p / 1024 < d.poolOf h k then d.scrubLine h (k * 2 ^ 22 + p / 1024) (p % 1024) err
          else d.scrubRegion h k p unit verdict cw sy
        (d.upd h fun x => { x with ecc := { x.ecc with scrubPos := smPut x.ecc.scrubPos k 0 (p + 1) } }).scrubPass h) s

/-- `SRAM_SWEEP` (R140): every row of the Landing cache, the Manifest cache, the key-slot store and the sailing ledger is
read. `flips` are bits of Landing slots that have flipped; `dirs` are slots whose directory entry is uncorrectable in both
copies: the slot is invalidated and its way disabled (R180, DEDUCED, notes/assumptions/27.md). `rows` are rows found in error: unit 7
to 9, row, syndrome, and 0 corrected, 1 uncorrectable, 2 both ledger copies uncorrectable, which makes the half go solo. -/
def execSramSweep (h : Half) (flips : List (Nat × SLine)) (dirs : List Nat) (rows : List SramErr) (s : State) : Out :=
  onDevT (fun d =>
    let d := dirs.foldl (fun d k =>
      ((d.landDrop h k).wayDisable h (k % 16) true).raise h pgLAND .landDirLost (k / 16) (k % 16)) d
    let d := flips.foldl (fun d e => match smGet (d.half h).land.slots e.1 with
      | some l => d.landPut h e.1 { l with line := { data := l.line.data ^^^ e.2.data, side := l.line.side ^^^ e.2.side } }
      | none => d) d
    let d := (d.half h).land.slots.foldl (fun d e => match smGet (d.half h).land.slots e.1 with
      | none => d
      | some l =>
        let p := d.landRead h e.1 l
        match p.1.verdict with
        | .bad _ => p.2.landBad h e.1 l p.1
        | _ => p.2) d
    let d := ((d.injTally h 1 7 0).injTally h 2 8 0).injTally h 3 9 0
    rows.foldl (fun d e =>
      if e.unit < 7 || 9 < e.unit then d
      else
        let d := d.tallyRead h e.unit e.row e.sy (decide (1 ≤ e.sev))
        if e.unit = 9 && e.sev = 2 then d.goSolo else d) d) s

/-- `REPEAT_FILTER_EXPIRY` (R139): the entry created first expires. -/
def execRepeatFilterExpiry (h : Half) (s : State) : Out :=
  onDev (fun d => d.upd h fun x => { x with ecc := { x.ecc with filter := x.ecc.filter.tail } }) s

/-! ### Repairs -/

/-- `LINE_REPAIR_NAND_DONE` (R142 step 1): the NAND copy of the oldest such repair has been read and its CMAC checked. -/
def execLineRepairNandDone (h : Half) (ok : Bool) (s : State) : Out :=
  onDevT (fun d => match (d.half h).ecc.repairs.find? fun r => r.stage == .nand with
    | none => d
    | some r =>
      let e := d.tile h (lineTile r.line)
      match d.nandImg h e.nand.toNat with
      | some i =>
        if ok && d.imgOk h i then
          let k := d.kslot h i.slot.toNat
          let p := k.pair i.phase
          let x := (tileXts false p.1 p.2 k.gen i.phase i.tile i.data).getD (lineJ r.line) 0
          let tags := mkTags (BitVec.ofNat 18 i.sailing) 0 i.slot i.phase (i.poison.getLsbD (lineJ r.line)) 0xF false i.ld
          (d.putFrameLine h e.frame.toNat (lineJ r.line)
            (encodeLine r.line (lineXts true p.1 p.2 k.gen i.phase r.line x) tags)).repairEnd h r.line (some 1)
        else d.repairStep2 h r
      | none => d.repairStep2 h r) s

/-- `LINE_RECALL_AFTER_SEAL` (R142 step 2): the oldest repair whose tile is now sealed with the twin sends its recall. -/
def execLineRecallAfterSeal (h : Half) (s : State) : Out :=
  onDevT (fun d => match (d.half h).ecc.repairs.find? fun r => r.stage == .sealWait
      && d.mirroredOk h (d.tile h (lineTile r.line)).lastSailing with
    | none => d
    | some r => d.repairStep2 h r) s

/-- `REPAIR_HOLD_EXPIRY` (R143, R329): the oldest request held at a line has waited `REPAIR_HOLD`: a read returns poison, a
partial write merges into the poisoned line and ends the repair. -/
def execRepairHoldExpiry (h : Half) (line : Nat) (s : State) : Out :=
  onDevT (fun d => match d.repairOf h line with
    | some r =>
      match r.held with
      | [] => d
      | q :: qs =>
        let put (d : Dev) : Dev := d.upd h fun x => { x with ecc := { x.ecc with
          repairs := x.ecc.repairs.map fun y => if y = r then { y with held := qs } else y } }
        match q.kind with
        | .read => (put d).respondPoison h q (d.lastSailing h (d.tile h (lineTile line)))
        | .write _ _ _ =>
          let d := ((put d).ueEnd h r.entry none).repairDrop h line
          let d := if r.landing then (match d.landFind h line with
            | some (k, _) => d.landDrop h k
            | none => d) else d
          (d.acceptWrite h q 0 0xF true).poisoned h line
    | none =>
      match (d.half h).tier.held.find? fun q => q.line == line && !q.isWrite && (d.tile h (lineTile line)).state == .dark with
      | none => d
      | some q =>
        (d.upd h fun x => { x with tier := { x.tier with held := x.tier.held.erase q } }).respondPoison h q
          (d.lastSailing h (d.tile h (lineTile line)))) s

/-! ### `ECCD` (R148, R149) -/

/-- Words of a register array as one number. -/
def Dev.words (d : Dev) (h : Half) (page off n : Nat) : Nat :=
  (List.range n).foldl (fun v i => v + (d.reg h page (off + 4 * i)).toNat * 2 ^ (32 * i)) 0
def Dev.setWords (d : Dev) (h : Half) (page off n v : Nat) : Dev :=
  (List.range n).foldl (fun d i => d.setReg h page (off + 4 * i) (v / 2 ^ (32 * i) % 2 ^ 32)) d

/-- The stored bits of a diagnostic line, and its replacement. -/
def Dev.diagLine (d : Dev) (h : Half) (key : Nat) : SLine := smGetD (d.half h).ecc.diag key {}
def Dev.setDiag (d : Dev) (h : Half) (key : Nat) (l : SLine) : Dev :=
  d.upd h fun x => { x with ecc := { x.ecc with diag := smPut x.ecc.diag key {} l } }

/-- The tag words of a sideband as bits [101:84], [77:60] and [53:36] give them. -/
def sideTags (s : Nat) : Tags :=
  { ta := BitVec.ofNat 18 (s / 2 ^ 36), tb := BitVec.ofNat 18 (s / 2 ^ 60), tc := BitVec.ofNat 18 (s / 2 ^ 84) }

/-- End an `ECCD` command DONE, with the result's other fields. -/
def Dev.eccdDone (d : Dev) (h : Half) (res : Nat) : Dev := (d.setReg h pgECCD 0x0A4 (2 * 2 ^ 30 + res)).raise h pgECCD .eccdDone

/-- Verdict code of a codeword. -/
def cwCode : CwVerdict → Nat
  | .clean => 0 | .corrected => 1 | .bad => 2 | .ignored => 3

/-- `READ_DECODE` fills the data, sideband, result, syndrome and CRC registers. -/
def Dev.eccdDecode (d : Dev) (h : Half) (l : SLine) : Dev :=
  let r := decodeLine (d.reg64 h pgECCD 0x048 / 64 % 2 ^ 46) false none l
  let g (i : Nat) : Nat := r.synds.getD i 0
  let d := (d.setWords h pgECCD 0x0C0 16 (if r.tagsOk then r.data.toNat else l.data.toNat)).setWords h pgECCD 0x100 4 l.side.toNat
  let d := (d.setReg h pgECCD 0x0A8 (g 2 * 2 ^ 18 + g 1 * 2 ^ 9 + g 0)).setReg h pgECCD 0x0AC
    (g 6 * 2 ^ 21 + g 5 * 2 ^ 15 + g 4 * 2 ^ 9 + g 3)
  let d := d.setReg h pgECCD 0x0B0 r.crcDiff.toNat
  d.eccdDone h (bnum r.tags.poison * 2 ^ 16 + (if r.crcDiff = 0 then 0 else 2) * 2 ^ 14
    + lsum (r.cws.zipIdx.map fun e => cwCode e.1 * 4 ^ e.2))

/-- Move a diagnostic frame to a free frame of a subchannel (R148); none where there is none. -/
def Dev.relocate (d : Dev) (h : Half) (i k : Nat) : Option Dev :=
  if 24 ≤ k || !(d.subOk h k) || (d.half h).ecc.diagFrames.length ≤ i then none
  else (((d.subFrame h k .freeRaw).orElse fun _ => d.subFrame h k .freeFmt).map fun e =>
    let f := e.2
    let old := (d.half h).ecc.diagFrames.getD i 0
    let d := (d.freeFrame h old).setFrame h f { state := .diag, tile := i }
    let d := d.upd h fun x => { x with ecc := { x.ecc with diagFrames := x.ecc.diagFrames.set i f } }
    (d.setFld h pgECCD (0x110 + i / 4 * 4) (i % 4 * 8 + 7) (i % 4 * 8) k).eccdDone h 0)

/-- A write of `ECCD.CMD`. -/
def Dev.eccdCmd (h : Half) (v : Nat) (d : Dev) : Option Dev :=
  let i := d.fld h pgECCD 0x040 27 24
  let key := i * 1024 + d.fld h pgECCD 0x040 9 0
  match v % 8 with
  | 1 => some ((d.setDiag h key { data := BitVec.ofNat 512 (d.words h pgECCD 0x050 16)
                                  side := BitVec.ofNat 128 (d.words h pgECCD 0x090 4) }).eccdDone h 0)
  | 2 => some ((d.setDiag h key (encodeLine (d.reg64 h pgECCD 0x048 / 64 % 2 ^ 46) (BitVec.ofNat 512 (d.words h pgECCD 0x050 16))
      (sideTags (d.words h pgECCD 0x090 4)))).eccdDone h 0)
  | 3 => some (d.eccdDecode h (d.diagLine h key))
  | 4 =>
    let l := d.diagLine h key
    some (((d.setWords h pgECCD 0x0C0 16 l.data.toNat).setWords h pgECCD 0x100 4 l.side.toNat).eccdDone h 0)
  | 5 => d.relocate h i (bitsOf v 12 8)
  | _ => none

/-- Show a refused `ECCD` command. -/
def Dev.eccdNo (h : Half) (d : Dev) : Dev := d.setFld h pgECCD 0x0A4 31 30 3

/-- An `ECCD` command written by an origin. -/
def eccdWrite (org : Origin) (h : Half) (v : Nat) (s : State) : Out :=
  onDevT (fun d => d.command org h pgECCD 0x0A0 v (Dev.eccdCmd h v) false true (Dev.eccdNo h)) s

/-- `WRITE_RAW`, `WRITE_ENC`, `READ_DECODE`, `READ_RAW` and `RELOCATE` (R148). -/
def execWriteRaw (org : Origin) (h : Half) (s : State) : Out := eccdWrite org h 1 s
def execWriteEnc (org : Origin) (h : Half) (s : State) : Out := eccdWrite org h 2 s
def execReadDecode (org : Origin) (h : Half) (s : State) : Out := eccdWrite org h 3 s
def execReadRaw (org : Origin) (h : Half) (s : State) : Out := eccdWrite org h 4 s
def execRelocate (org : Origin) (h : Half) (sub : Nat) (s : State) : Out := eccdWrite org h (5 + sub % 32 * 256) s

/-- Arm one injection; the key-slot store and the ledger only in a test state (R149). -/
def Dev.armInj (h : Half) (test : Bool) (v : Nat) (d : Dev) : Option Dev :=
  if bitsOf v 31 31 = 0 then some (d.upd h fun x => { x with ecc := { x.ecc with injArmed := false } })
  else if 4 < bitsOf v 27 24 || (!test && (bitsOf v 27 24 == 2 || bitsOf v 27 24 == 3)) then none
  else some (d.upd h fun x => { x with ecc := { x.ecc with injArmed := true } })

/-- `SRAM_INJ` (R149): ARM = 1 written over the register's current settings. -/
def execSramInj (org : Origin) (h : Half) (s : State) : Out :=
  onDev (fun d =>
    let v := 2 ^ 31 + (d.reg h pgECCD 0x120).toNat % 2 ^ 31
    d.command org h pgECCD 0x120 v (Dev.armInj h (d.testOn (s.otp.get h) h) v)) s

/-! ### The scoresheet's selector and acknowledgement -/

/-- The 256 bits of an entry (R144). -/
def ScorEntry.bits (e : ScorEntry) : Nat :=
  e.last % 2 ^ 64 * 2 ^ 192 + e.first % 2 ^ 64 * 2 ^ 128 + e.location % 2 ^ 64 * 2 ^ 64 + min e.count 0xFFFF * 2 ^ 48
    + e.repair % 4 * 2 ^ 46 + bnum e.ack * 2 ^ 45 + bnum e.ldValid * 2 ^ 44 + e.ld % 128 * 2 ^ 37 + e.syndrome % 512 * 2 ^ 28
    + e.codeword % 8 * 2 ^ 25 + e.cause % 4 * 2 ^ 23 + e.cls % 8 * 2 ^ 20 + e.unit % 32

/-- Copy an entry into `ENTRY`. -/
def Dev.scorSel (h : Half) (v : Nat) (d : Dev) : Option Dev :=
  some ((d.setReg h pgSCOR 0x050 (v % 256)).setWords h pgSCOR 0x060 8 ((d.half h).ecc.sheet.getD (v % 256) {}).bits)

/-- Acknowledge a HARD entry. A change of the maintenance-needed status is a Memory Module event (R80). -/
def Dev.scorAck (h : Half) (v : Nat) (d : Dev) : Option Dev :=
  let i := v % 256
  let e := (d.half h).ecc.sheet.getD i {}
  if e.cls != clsHard then some d
  else
    let was := decide (0 < d.hardOpen h)
    let d := d.upd h fun x => { x with ecc := { x.ecc with sheet := x.ecc.sheet.set i { e with ack := true } } }
    some (if was != decide (0 < d.hardOpen h) then d.healthEvent 1 else d)

/-- `SCOR_SEL` (R151): a read selector, not journaled (R354). -/
def execScorSel (org : Origin) (h : Half) (i : Nat) (s : State) : Out :=
  onDev (fun d => d.command org h pgSCOR 0x050 i (Dev.scorSel h i) false false) s

/-- `SCOR_ACK` (R146). -/
def execScorAck (org : Origin) (h : Half) (i : Nat) (s : State) : Out :=
  onDev (fun d => d.command org h pgSCOR 0x054 i (Dev.scorAck h i)) s

end Sys2Proof.Machine
end

