-- ==== Sys2Proof/Machine/KeysBase.lean ====
section
/-! DEFINITION. Key slots (chapter 10): ownership (R210, R255), both halves' copies (R253), records (R260), key events
(R199), and the steps of an erase (R274 to R276). -/

namespace Sys2Proof.Machine

/-- The mode, slot split and boundary in effect (R210, R222): the session's, or what is committed where none has run. -/
def Dev.pairMode (d : Dev) : Nat := d.fld .west pgFERY 0x044 2 0
def Dev.slotSplit (d : Dev) : Nat := d.fld .west pgFERY 0x044 26 16

/-- The device owns a key slot (R210). -/
def Dev.ownsSlot (d : Dev) (n : Nat) : Bool :=
  match d.pairMode with
  | 2 => false
  | 3 => decide (n < d.slotSplit)
  | 4 => decide (d.slotSplit ≤ n)
  | _ => true

/-- The device owns a tile of a half (R210): BOUNDARY counts 256 MiB. -/
def Dev.ownsTile (d : Dev) (t : Nat) : Bool :=
  let b := d.fld .west pgFERY 0x048 22 0 * 4096
  match d.pairMode with
  | 2 => false
  | 3 => decide (t < b)
  | 4 => decide (b ≤ t)
  | _ => true

/-- Change a slot in both halves' stores (R253). -/
def Dev.slotBoth (d : Dev) (n : Nat) (f : KeySlot → KeySlot) : Dev := d.eachHalf fun d h => d.updSlot h n f

/-- 64-bit words of a 256-bit key for RFC 3394, in byte order; byte k of a key is bits [8k+7:8k]. -/
def keyWords (k : BitVec 256) : List (BitVec 64) :=
  (pieces 8 4 (toLe 32 k.toNat)).map fun b => BitVec.ofNat 64 (fromBe b)

/-- A key from its four words. -/
def keyOfWords (ws : List (BitVec 64)) : BitVec 256 := BitVec.ofNat 256 (fromLe (ws.flatMap fun w => toBe 8 w.toNat))

/-- The words of K1, K2 and the CMAC key of a slot's phase, in the order of R258. -/
def KeySlot.words (k : KeySlot) (ph : Bool) : List (BitVec 64) :=
  keyWords (k.pair ph).1 ++ keyWords (k.pair ph).2 ++ keyWords k.cmac

/-- The initial value of a wrapped key (R258). -/
def wrapIv (gen : BitVec 32) (slot : Nat) (ph : Bool) : Nat :=
  0x4B59 * 2 ^ 48 + gen.toNat * 2 ^ 16 + slot % 1024 * 2 ^ 6 + bnum ph * 2 ^ 5

/-- Wrap a slot's phase under a wrap key (R258). -/
def KeySlot.wrapped (k : KeySlot) (slot : Nat) (ph : Bool) (key : BitVec 256) : List (BitVec 64) :=
  (kwWrap key.toNat (wrapIv k.gen slot ph) ((k.words ph).map (·.toNat))).map (BitVec.ofNat 64)

/-- Write the wrapped copy of a slot's loaded phases into a half's records (R260). -/
def Dev.recordHalf (d : Dev) (h : Half) (n : Nat) : Dev :=
  let k := d.kslot h n
  let key := ((d.half h).boot.keys.map (·.recWrap)).getD 0
  let put (m : SMap (List (BitVec 64))) (ph : Bool) : SMap (List (BitVec 64)) :=
    if (if ph then k.loadedB else k.loadedA) then smSet m (n * 2 + bnum ph) (k.wrapped n ph key)
    else smDel m (n * 2 + bnum ph)
  d.upd h fun x => { x with ciph := { x.ciph with records := put (put x.ciph.records false) true } }

/-- The same in both halves. -/
def Dev.recordSlot (d : Dev) (n : Nat) : Dev := d.eachHalf fun d h => d.recordHalf h n

/-- Put a `KEY_EVENT` into a half's sailing stream, for a slot that the device owns while a twin is paired (R199, R260):
0 LOAD_PHASE, 1 ERASE, 2 RETIRE. -/
def Dev.keyEventHalf (d : Dev) (h : Half) (op n : Nat) (ph : Bool) : Dev :=
  if !(d.ownsSlot n) then d
  else
    let k := d.kslot h n
    d.feryStream h (.keyEvent op (BitVec.ofNat 10 n) ph k.gen (if op = 0 then k.words ph else []))

/-- The same in both halves. -/
def Dev.keyEvent (d : Dev) (op n : Nat) (ph : Bool) : Dev := d.eachHalf fun d h => d.keyEventHalf h op n ph

/-- Raise a `KEYS` event in both halves. -/
def Dev.keysRaise (d : Dev) (e : Ev) (n : Nat) : Dev := d.eachHalf fun d h => d.raise h pgKEYS e n

/-- Zeroise a slot's keys (R274 step 3). -/
def KeySlot.zero (k : KeySlot) : KeySlot :=
  { k with k1a := 0, k2a := 0, k1b := 0, k2b := 0, cmac := 0, loadedA := false, loadedB := false, cur := false }

/-! ### The queue of the cipher engine (R265, R270) -/

/-- Fields of a request (R266). -/
def CiphReq.f (q : CiphReq) (hi lo : Nat) : Nat := bitsOf q.bits.toNat hi lo

/-- SLOT and PHASE of a queued cipher request that names a slot (R266). -/
def CiphReq.slotOf (q : CiphReq) : Option (Nat × Bool) :=
  if q.f 25 24 = 0 then some (q.f 35 26, q.f 36 36 == 1) else none

/-- The class that a request is served as: a normal or bulk request that has aged counts as high (R268). -/
def CiphReq.cls (q : CiphReq) : Nat := if q.aged then min (q.f 17 16) 1 else q.f 17 16

/-- Requests queued and not dispatched: `CIPH.STATUS.QUEUED`. -/
def CiphHalf.queued (c : CiphHalf) : List CiphReq := c.queue.filter (·.core.isNone)

/-- The queue has an entry for a request: 32 of the 256 are kept for the urgent class. -/
def CiphHalf.room (c : CiphHalf) (q : CiphReq) : Bool :=
  decide (c.queued.length < 256) && (q.f 17 16 == 0 || decide ((c.queued.filter fun r => r.f 17 16 != 0).length < 224))

/-- Waiting submitters take the entries that are free, oldest first. -/
def CiphHalf.fill (c : CiphHalf) : CiphHalf :=
  c.waiting.foldl (fun c q => if c.room q then { c with queue := c.queue ++ [q], waiting := c.waiting.erase q } else c) c

/-- Write a request's completion (R270), with its counters and `CMAC_MISMATCH`. -/
def Dev.ciphDone (d : Dev) (h : Half) (q : CiphReq) (st elapsed : Nat) (dst : List Byte) : Dev :=
  let d := d.upd h fun x => { x with ciph := { x.ciph with
    queue := x.ciph.queue.filter (·.id != q.id)
    done := { op := q.f 7 0, status := st, tag := q.f 63 48, suspends := min q.suspends 0xFFFF, elapsed := elapsed, dst := dst }
      :: x.ciph.done } }
  let d := d.upd h fun x => { x with ciph := x.ciph.fill }
  let d := d.wrap64 h pgCIPH (0x048 + 8 * q.f 17 16)
  let d := if st = 2 then d.sat h pgCIPH 0x074 else d
  if st = 1 then (d.sat h pgCIPH 0x070).raise h pgCIPH .cmacMismatch (q.f 17 16) (q.f 63 48) else d

/-- Steps 1 and 2 of R274 in some halves: ERASING, and waiting and suspended requests that name the slot fail with
`KEY_ERASED` (2); requests that run are let finish. A sweep of the slot is abandoned (R279). -/
def Dev.eraseBegin (d : Dev) (n : Nat) (hs : List Half) : Dev :=
  let d := hs.foldl (fun d h =>
    let d := d.updSlot h n fun k => { k with state := .erasing, walking := false, pending := false }
    ((d.half h).ciph.queue.filter fun q => (q.slotOf.map (·.1)) == some n && (q.core.isNone || q.suspended)).foldl (fun d q =>
      d.ciphDone h q 2 0 []) d) d
  { d with keys := { d.keys with sweep := if (d.keys.sweep.map (·.slot)) == some n then none else d.keys.sweep } }

/-- Overwrite a slot's record copies in some halves (R274 step 4). -/
def Dev.eraseRecord (d : Dev) (n : Nat) (hs : List Half) : Dev :=
  hs.foldl (fun d h => d.upd h fun x => { x with ciph := { x.ciph with
    records := smDel (smDel x.ciph.records (n * 2)) (n * 2 + 1) } }) d

/-- Steps 3 and 5 of R274: the keys are zeroised, GENERATION + 1, EMPTY with WALKING, no owner, `KEY_EVENT` ERASE, `SLOT_ERASED`. A retire, or an erase
at the greatest generation, leaves the slot RETIRED with `KEY_EVENT` RETIRE (R276). -/
def Dev.eraseFinish (d : Dev) (n : Nat) (hs : List Half) (retire : Bool) : Dev :=
  let gone := retire || (d.kslot (hs.headD .west) n).gen == 0xFFFFFFFF
  let d := hs.foldl (fun d h => d.updSlot h n fun k =>
    if gone then { k.zero with state := .retired, owner := none }
    else { k.zero with state := .empty, walking := true, owner := none, gen := k.gen + 1 }) d
  let d := hs.foldl (fun d h => d.keyEventHalf h (if gone then 2 else 1) n false) d
  hs.foldl (fun d h => d.raise h pgKEYS (if gone then .slotRetired else .slotErased) n) d

/-- Tiles of a half under a slot. -/
def Dev.tilesOfSlot (d : Dev) (h : Half) (n : Nat) : List Nat :=
  ((d.half h).tier.manf.filter fun e => e.2.slot.toNat == n && e.2.state != .blank).map (·.1)

/-- The erase walk over a half (R275): every tile that names the slot becomes LOST; one in RISING, SINKING or DARK when
that transition ends (R104). -/
def Dev.eraseWalk (d : Dev) (h : Half) (n : Nat) : Dev :=
  (d.tilesOfSlot h n).foldl (fun d t =>
    if d.inTransition h t || (d.tile h t).state == .dark then d else d.loseTile h t) d

/-- Tiles of the slot that the walk has still to make LOST. -/
def Dev.walkLeft (d : Dev) (h : Half) (n : Nat) : Bool := (d.tilesOfSlot h n).any fun t => (d.tile h t).state != .lost

/-- Slots owned by an LD. -/
def Dev.slotsOf (d : Dev) (ld : Nat) : List Nat :=
  ((d.west.ciph.slots.filter fun e => e.2.owner == some ld)).map (·.1)

/-- The lowest-numbered EMPTY slot that the device owns and that is not walking, outside a list (R277). -/
def Dev.freeSlot (d : Dev) (used : List Nat) : Option Nat :=
  (List.range 1024).find? fun n => d.ownsSlot n && !(used.contains n)
    && (d.kslot .west n).state == .empty && !(d.kslot .west n).walking && (d.kslot .west n).owner.isNone

/-- Draw a fresh 256-bit key. -/
def Dev.freshKey (d : Dev) : BitVec 256 × Dev := d.free 256

/-- A slot with keys written into a phase: the first load into an EMPTY slot sets the CMAC key and CUR and makes it ACTIVE
(R259). -/
def KeySlot.load (k : KeySlot) (ph : Bool) (k1 k2 mac : BitVec 256) : KeySlot :=
  let k := if ph then { k with k1b := k1, k2b := k2, loadedB := true } else { k with k1a := k1, k2a := k2, loadedA := true }
  if k.state = .empty then { k with state := .active, cur := ph, cmac := mac, pending := false } else { k with pending := false }

/-- Write keys into a phase of a slot in a half, with its record, its `KEY_EVENT` and `KEY_LOADED` (R259, R260). -/
def Dev.loadHalf (d : Dev) (h : Half) (n : Nat) (ph : Bool) (k1 k2 mac : BitVec 256) : Dev :=
  (((d.updSlot h n fun k => k.load ph k1 k2 mac).recordHalf h n).keyEventHalf h 0 n ph).raise h pgKEYS .keyLoaded n

/-- The same in both halves. -/
def Dev.loadKeys (d : Dev) (n : Nat) (ph : Bool) (k1 k2 mac : BitVec 256) : Dev :=
  d.eachHalf fun d h => d.loadHalf h n ph k1 k2 mac

/-- `GENERATE` into a slot, from the DRBG (R259). -/
def Dev.generate (d : Dev) (n : Nat) (ph : Bool) : Dev :=
  let a := d.freshKey
  let b := a.2.freshKey
  let c := b.2.freshKey
  c.2.loadKeys n ph a.1 b.1 c.1

end Sys2Proof.Machine
end

