-- ==== Sys2Proof/Machine/CastBase.lean ====
section
/-! DEFINITION. The Castling table (R357, R362, R363, R368): views, and the ends of a transaction. -/

namespace Sys2Proof.Machine

/-- `CAST.STATUS.STATE` (R368). -/
def CastState.code : CastState → Nat
  | .none => 0 | .opened => 1 | .committing => 2 | .committed => 3 | .rolledBack => 4 | .abortConflict => 5
  | .abortCheck => 6 | .abortTimeout => 7 | .abortSize => 8 | .abortSplit => 9 | .abortFull => 10 | .full => 11
  | .refused => 12

/-- Show an origin's current or last transaction (R368). -/
def Dev.castView (d : Dev) (v : CastView) : Dev :=
  { d with cast := { d.cast with views := v :: d.cast.views.filter fun w => !(w.org == v.org) } }

/-- The view of an origin. -/
def Dev.viewOf (d : Dev) (org : Origin) : CastView :=
  (d.cast.views.find? fun v => v.org == org).getD { org := org, state := .none, staged := 0, txn := 0 }

/-- `CAST.ERR` of a register (R368). -/
def errWord (h : Half) (key : Nat) : Word := BitVec.ofNat 32 (key / 1024 * 2 ^ 20 + h.num * 2 ^ 19 + key % 1024 * 2 ^ 9)

/-- A staged word is the low word of its register. -/
def stagedBase (key : Nat) : Bool :=
  match blockOf (key / 1024) with
  | none => true
  | some (b, _) => match findReg b (key % 1024 * 4) with
    | some (r, k) => r.base k == key % 1024 * 4
    | none => true

/-- Registers staged (R358). -/
def Txn.count (t : Txn) : Nat := (t.staged.filter fun e => stagedBase e.2.1).length

/-- Close the transaction of a slot in a state, with its journal entry and its event (R360, R362). `cmd` says that an
origin's own `CAST.CMD` ends it, whose entry is the end's. -/
def Dev.castClose (d : Dev) (i : Nat) (st : CastState) (cmd : Bool) (err : Word := 0) (jseq : Word := 0) : Dev :=
  match (d.cast.slots.getD i none) with
  | none => d
  | some t =>
    let d := { d with cast := { d.cast with slots := d.cast.slots.set i none } }
    let d := d.castView { org := t.org, state := st, staged := t.count, txn := t.id, err := err, errJseq := jseq }
    let d := if cmd then d else d.journal t.org t.coord pgCAST 0x040 rABORTED 0 (if t.committing then 2 else 3) t.id
    match st with
    | .abortTimeout => d.raise t.coord pgCAST .castTimeout t.id
    | .abortConflict | .abortCheck | .abortSize | .abortSplit | .abortFull => d.raise t.coord pgCAST .castAborted t.id st.code
    | _ => d

/-- Close the transactions that a test picks. -/
def Dev.castCloseAll (d : Dev) (p : Txn → Bool) (st : CastState) : Dev :=
  (List.range 8).foldl (fun d i => match d.cast.slots.getD i none with
    | some t => if p t then d.castClose i st false else d
    | none => d) d

/-- Roll back an origin's OPEN transaction: its path has reset (R85, R337, R363). -/
def Dev.castDropOrg (d : Dev) (p : Origin → Bool) : Dev :=
  d.castCloseAll (fun t => p t.org && !t.committing) .rolledBack

/-- The Ford is lost: a commit whose vote is not in ends ABORT_SPLIT (R360, R363). -/
def Dev.castSplit (d : Dev) : Dev := d.castCloseAll (fun t => t.committing && !t.voted) .abortSplit

end Sys2Proof.Machine
end

