-- ==== Sys2Proof/Machine/Port.lean ====
section
/-! DEFINITION. Chapters 01 and 03: host requests (R26 to R30, R75), the Manifest fetch and DRAM reads, Heal write-backs,
cross-half requests, links and resets (R69, R85), HDM decoders (R73), fences and GPF (R47, R50, R61), `EV_IRQ` (R77).
Log entries of notes/assumptions that bear on this file: PRESUMED 21. -/

namespace Sys2Proof.Machine

/-! ### A host request at its port -/

/-- The port serves CXL.mem on a sub-link: the link is up with CXL.mem, and the half runs (R69, R85, R305). -/
def Dev.portServes (d : Dev) (h : Half) (port sub : Nat) : Bool :=
  let x := d.half h
  let l := ((x.ports.getD port {}).links.getD sub {})
  l.up && l.cxlMem && !(d.islandDark h (Block.hpt.island port)) && (x.pwr.state == .on || x.pwr.state == .trim)

/-- The LDA an HDM decoder gives an address (R67): the decoders below it and its skip set its base, and the interleave
takes out this device's share (CXL 3.1; PRESUMED, notes/assumptions/21.md). -/
def hdmDecode : List Hdm → Nat → Nat → Option Nat
  | [], _, _ => none
  | x :: xs, lda0, hpa =>
    if x.committed && decide (x.base ≤ hpa) && decide (hpa < x.base + x.size) then
      let off := hpa - x.base
      some (lda0 + x.skip + off / (x.ways * x.gran) * x.gran + off % x.gran)
    else hdmDecode xs (if x.committed then lda0 + x.skip + x.size / x.ways else lda0) hpa

/-- The DPA line of an LDA, where an extent that is not being released maps it (R72, R74). -/
def Dev.ldaLine (d : Dev) (h : Half) (c lda : Nat) : Option Nat :=
  ((d.extents h c).find? fun e => !e.releasing && decide (e.lda * 2 ^ 26 ≤ lda) && decide (lda < (e.lda + e.len) * 2 ^ 26)).map
    fun e => e.dpa * 2 ^ 20 + (lda - e.lda * 2 ^ 26) / 64

/-- How a port takes an access: refused as unmapped with its LDA, discarded under WRITE_REFUSED, or to a line. -/
inductive PortTake where
  | unmapped (lda : Nat)
  | refused
  | line (n : Nat)
  deriving DecidableEq, Repr

/-- Judge an access by an LD (R75, R332). -/
def Dev.portTake (d : Dev) (h : Half) (c hpa : Nat) (wr : Bool) : PortTake :=
  let x := d.ldc h c
  match hdmDecode x.hdm 0 hpa with
  | none => .unmapped 0
  | some lda =>
    if x.mediaDisabled || d.accessRefused h c || !(d.mediaUp h) then .unmapped lda
    else match d.ldaLine h c lda with
      | none => .unmapped lda
      | some n =>
        if !(d.mediaUp (lineHalf n)) then .unmapped lda
        else if lineHalf n != h && (d.split && d.rejoin == 0 || d.single || (d.half h).ford.state == .lost) then .unmapped lda
        else if wr && x.writeRefused then .refused
        else .line n

/-- A host access at a port (R26, R28, R75). -/
def Dev.hostAccess (d : Dev) (h : Half) (port sub ldid tag hpa : Nat) (kind : ReqKind) : Dev :=
  if !(d.portServes h port sub) then d
  else match d.ctxAt h port sub ldid with
    | none => d
    | some c =>
      let src : ReqSrc := .host h port c tag
      let ld := d.ldNum h c
      let wr := kind != .read
      let d := d.updLd h c fun x => { x with inFlight := x.inFlight + 1 }
      match d.portTake h c (hpa / 64 * 64) wr with
      | .unmapped lda =>
        (d.unmappedNote h c lda).deliver h { src := src, ld := ld, sailing := 0, marks := false
                                             data := if wr then none else some 0, poison := !wr }
      | .refused => d.deliver h { src := src, ld := ld, sailing := 0, data := none, marks := false }
      | .line n =>
        let r : Req := { src := src, ld := ld, line := n, kind := kind }
        if wr then d.portWrite h r else d.route h r

/-- `HOST_READ` (R26). -/
def execHostRead (h : Half) (port sub ldid tag hpa : Nat) (s : State) : Out :=
  onDevS (fun d => d.hostAccess h port sub ldid tag hpa .read) s

/-- `HOST_WRITE` (R28). -/
def execHostWrite (h : Half) (port sub ldid tag hpa : Nat) (data : LineData) (s : State) : Out :=
  onDevS (fun d => d.hostAccess h port sub ldid tag hpa (.write data fullMask false)) s

/-- `HOST_PARTIAL_WRITE` (R128). -/
def execHostPartialWrite (h : Half) (port sub ldid tag hpa : Nat) (data : LineData) (mask : BitVec 64) (s : State) : Out :=
  onDevS (fun d => d.hostAccess h port sub ldid tag hpa (.write data mask false)) s

/-- How the environment's read of a stored word came out: clean, one codeword corrected, or uncorrectable. -/
def Dev.regionRead (d : Dev) (h : Half) (u : Nat) (verdict loc cw sy : Nat) : Dev :=
  if verdict = 1 then d.corrected h true u loc cw sy none none else d

/-- Restore an uncorrectable Manifest region entry (R143): from the newest checkpoint, or rebuilt from the frame table and
the NAND copy, as it stood; a tile that has neither becomes LOST. -/
def Dev.restoreEntry (d : Dev) (h : Half) (t loc cw sy : Nat) : Dev :=
  let e := d.tile h t
  let p := d.ueFound h 1 loc cw sy 0 (some e.ld.toNat)
  let held := (d.mcWay h t).isSome || !((d.half h).tier.changed.contains (t / 4096)) || TileStateResident e.state
    || e.nand != 0xFFFFFFFFF
  if held then p.2.ueEnd h p.1 (some (if (d.mcWay h t).isSome then 3 else 1))
  else
    (((p.2.setTile h t { e with state := .lost }).raise h pgMANF .tileLost (tileNo h t)).ueEnd h p.1 none).tilePoisoned h t 1024
      e.ld.toNat

/-- `MANIFEST_ENTRY_FETCH_DONE` (R27): the oldest fetch's entry returns; every request that waits for the tile goes on. -/
def execManifestEntryFetchDone (h : Half) (verdict loc cw sy : Nat) (s : State) : Out :=
  onDevS (fun d =>
    match (d.half h).tier.fetching with
    | [] => d
    | r :: _ =>
      let t := lineTile r.line
      let go := (d.half h).tier.fetching.filter fun q => lineTile q.line == t
      let d := d.upd h fun x => { x with tier := { x.tier with fetching := x.tier.fetching.filter fun q => lineTile q.line != t } }
      let d := d.regionRead h 1 verdict loc cw sy
      let d := if 2 ≤ verdict then d.restoreEntry h t loc cw sy else d
      go.foldl (fun d q => d.go h q true) (d.mcFill h t)) s

/-- A read burst of the frame has come in (R26 steps 6 to 8). -/
def Dev.burstDone (d : Dev) (h : Half) (r : Req) (err : SLine) : Dev :=
  let e := d.tile h (lineTile r.line)
  if !(TileStateResident e.state) then d.go h r false
  else if (d.landFind h r.line).isSome || (d.repairOf h r.line).isSome || (d.half h).land.buf.any fun b => b.line == r.line then
    match r.kind with
    | .read => d.readResident h r
    | .write _ _ _ => d.writeResident h r
  else
    let f := e.frame.toNat
    let p := d.frameRead h f (lineJ r.line) r.line err
    match p.1.verdict with
    | .bad _ => p.2.repairStart h r.line f p.1 [r]
    | _ =>
      let x := p.2.plain h r.line p.1
      match r.kind with
      | .write _ _ _ => p.2.acceptWrite h r (x.getD 0) p.1.tags.w p.1.tags.poison
      | .read =>
        let d := match x with
          | none => p.2
          | some v =>
            if p.2.fld h pgLAND 0x040 1 1 == 1 then
              let q := p.2.landAlloc h r.line true
              match q.1 with
              | some key => q.2.landPut h key { tag := landTag r.line, dirty := false, line := encodeLine r.line v p.1.tags }
              | none => q.2
            else p.2
        d.readOut h r p.1.tags x

/-- `DRAM_READ_DONE` (R26): the burst of the oldest waiting read whose
subchannel serves completes; `err` is what the medium has flipped. -/
def execDramReadDone (h : Half) (err : SLine) (s : State) : Out :=
  onDevS (fun d =>
    match (d.half h).tier.dramReads.find? fun r => !(d.subHeld h (frameSub (d.tile h (lineTile r.line)).frame.toNat)) with
    | none => d
    | some r => (d.upd h fun x => { x with tier := { x.tier with dramReads := x.tier.dramReads.erase r } }).burstDone h r err) s

/-- `HEAL_WRITEBACK` (R137): the oldest waiting write-back issues, or is dropped where the line has been rewritten. -/
def execHealWriteback (h : Half) (s : State) : Out :=
  onDev (fun d =>
    match (d.half h).ecc.heals with
    | [] => d
    | w :: ws =>
      let d := d.upd h fun x => { x with ecc := { x.ecc with heals := ws } }
      if w.landing then
        match smGet (d.half h).land.slots w.place with
        | some e => if e.line = w.was then d.landPut h w.place { e with line := w.now } else d
        | none => d
      else if d.frameLine h (w.place / 1024) (w.place % 1024) = w.was then
        (d.putFrameLine h (w.place / 1024) (w.place % 1024) w.now).wrap64 h (pgMEMC (frameSub (w.place / 1024) / 2)) 0x080
      else d) s

/-! ### Across the Ford (R29, R30) -/

/-- `MEM_RD` (R29): the home half serves a cross-half read as a local one. -/
def execMemRd (h : Half) (s : State) : Out :=
  onDevS (fun d => match d.fordTake h 1 FordMsg.isMemRd with
    | some (.memRd line ld tag, d) => d.arrive h { src := .ford tag, ld := ld, line := line, kind := .read }
    | _ => d) s

/-- `MEM_WR` (R29): the home half accepts a cross-half full-line write. -/
def execMemWr (h : Half) (s : State) : Out :=
  onDevS (fun d => match d.fordTake h 1 FordMsg.isMemWr with
    | some (.memWr line ld tag data, d) =>
      d.arrive h { src := .ford tag, ld := ld, line := line, kind := .write data fullMask false }
    | _ => d) s

/-- `MEM_WRP` (R29): the home half accepts a cross-half partial write. -/
def execMemWrp (h : Half) (s : State) : Out :=
  onDevS (fun d => match d.fordTake h 1 FordMsg.isMemWrp with
    | some (.memWrp line ld tag data mask, d) =>
      d.arrive h { src := .ford tag, ld := ld, line := line, kind := .write data mask false }
    | _ => d) s

/-- Take the crossing of a tag. -/
def Dev.crossTake (d : Dev) (h : Half) (tag : Nat) : Option (Cross × Dev) :=
  ((d.half h).crossing.find? fun c => c.tag == tag).map fun c =>
    (c, d.upd h fun x => { x with crossing := x.crossing.filter fun y => y.tag != tag })

/-- The highest sailing a stamp from the other half may name: the follower's master may be one ahead (R24, R35). -/
def Dev.stampTop (d : Dev) (h : Half) : Nat := (d.half h).sail.current + (if d.isMaster h then 0 else 1)

/-- `MEM_RD_DATA` (R30): cross-half read data goes to its port through the visibility floor. -/
def execMemRdData (h : Half) (s : State) : Out :=
  onDev (fun d => match d.fordTake h 2 FordMsg.isMemRdData with
    | some (.memRdData tag stamp poison fill data, d) =>
      match d.crossTake h tag with
      | some (c, d) =>
        let sl := if fill then 0 else resolve 18 (d.stampTop h) stamp
        d.floor h { src := c.src, ld := c.ld, sailing := sl, data := some data, poison := poison, marks := !fill }
      | none => d
    | _ => d) s

/-- A cross-half write's acceptance at its port (R29, R45, R46). -/
def Dev.crossAccepted (d : Dev) (h : Half) (c : Cross) : Dev :=
  let s := (d.half h).sail.current
  let m := if d.isMaster h then s else s + 1
  match c.src with
  | .host _ p x _ =>
    let d := d.wrap64 h (pgHPT p) 0x058
    if d.strictMode h x then
      (d.upd h fun y => { y with sail := { y.sail with
        strict := y.sail.strict ++ [{ src := c.src, ld := c.ld, sailing := m, cross := true }] } }).seal
    else d.deliver h { src := c.src, ld := c.ld, sailing := m, data := none }
  | _ => d

/-- `MEM_WR_ACK` (R29): the acceptance of cross-half writes returns their completions. -/
def execMemWrAck (h : Half) (s : State) : Out :=
  onDev (fun d => match d.fordTake h 2 FordMsg.isMemWrAck with
    | some (.memWrAck tags, d) =>
      tags.foldl (fun d tag => match d.crossTake h tag with
        | some (c, d) => d.crossAccepted h c
        | none => d) d
    | _ => d) s

/-! ### Links (R69) and resets (R85) -/

/-- Return an LD's CXL state to its defaults and discard its fences; `full` also clears the decoders (R85). -/
def Dev.resetLd (d : Dev) (h : Half) (c : Nat) (full : Bool) : Dev :=
  let d := d.dropFences h c
  d.updLd h c fun x => { x with
    mboxBusy := false
    hdm := if full then List.replicate 8 {} else x.hdm
    streams := x.streams.map fun s => if s.isOpen then { s with isOpen := false, status := 0 } else s }

/-- Drop responses not yet sent for the picked contexts: reads and completions held at the floor or for Strict, and
what waits in the fabric or at the Ford; a write there goes on without its response (R17, R85). -/
def Dev.dropResponses (d : Dev) (h : Half) (p : Nat → Bool) : Dev :=
  let mine : ReqSrc → Bool := fun r => match r with
    | .host k _ c _ => k == h && p c
    | _ => false
  let cut (l : List Req) : List Req := l.filterMap fun r =>
    if !(mine r.src) then some r else if r.isWrite then some { r with src := .dropped } else none
  d.eachHalf fun d k => d.upd k fun x => { x with
    sail := { x.sail with floor := x.sail.floor.filter fun f => !(mine f.src)
                          strict := x.sail.strict.filter fun f => !(mine f.src)
                          heldWrites := cut x.sail.heldWrites }
    tier := { x.tier with fetching := cut x.tier.fetching
                          dramReads := cut x.tier.dramReads
                          held := cut x.tier.held }
    ecc := { x.ecc with repairs := x.ecc.repairs.map fun r => { r with held := cut r.held } }
    crossing := x.crossing.filter fun c => !(mine c.src) }

/-- Reset the LDs of a half that a test picks (R85). -/
def Dev.resetLds (d : Dev) (h : Half) (p : Nat → Bool) : Dev :=
  let d := d.dropResponses h p
  ((d.ctxs h).filter p).foldl (fun d c => (d.resetLd h c true).updLd h c fun x => { x with inFlight := 0 }) d

/-- The management function's origin on a sub-link (R84). -/
def Dev.mgmtOn (d : Dev) (h : Half) (port sub : Nat) : Bool :=
  d.fld .west (pgHPT 0) 0x048 2 0 == h.num * 4 + port && d.fld .west (pgHPT 0) 0x048 4 3 == sub

/-- Roll back the management function's OPEN transaction when its link resets (R85); its transport key is lost (R257). -/
def Dev.mgmtReset (d : Dev) (h : Half) (port sub : Nat) : Dev :=
  let o := Origin.host (h.num * 4 + port)
  if d.mgmtOn h port sub then
    let d := d.castDropOrg fun x => x == o
    { d with keys := { d.keys with transports := d.keys.transports.filter fun t => !(t.org == o) } }
  else d

/-- Change a port. -/
def Dev.updPort (d : Dev) (h : Half) (p : Nat) (f : PortHalf → PortHalf) : Dev :=
  d.upd h fun x => { x with ports := lmod x.ports p f }

/-- Last Ferry runs: host resets are recorded and applied after it (R85). -/
def Dev.inLf (d : Dev) (h : Half) : Bool := (d.half h).pwr.state == .lastFerry

/-- Sub-links that a port's division has (R68). -/
def Dev.subLinks (d : Dev) (h : Half) (p : Nat) : Nat := match d.fld h (pgHPT p) 0x040 1 0 with
  | 0 => 1 | 1 => 2 | _ => 4

/-- Width code of a sub-link of the division: x16, x8, x4 (R90). -/
def Dev.subWidth (d : Dev) (h : Half) (p : Nat) : Nat := match d.fld h (pgHPT p) 0x040 1 0 with
  | 0 => 5 | 1 => 4 | _ => 3

/-- The outcome of a sub-link's training (R69): `speed` and `width` as `LINK_STATUS` codes, at most MAX_SPEED and the
division's width; CXL.mem needs 16 GT/s or more and 256-byte flits. -/
def Dev.linkUp (d : Dev) (h : Half) (port sub speed width : Nat) (flit256 : Bool) : Dev :=
  let x := (d.half h).ports.getD port {}
  let pg := pgHPT port
  if 4 ≤ port || d.subLinks h port ≤ sub || d.fld h pg 0x040 6 6 == 0 || !x.perstHigh
      || d.islandDark h (Block.hpt.island port) || d.inLf h then d
  else
    let sp := max (speed % 4) (d.fld h pg 0x040 5 4)
    let w := min (max 1 width) (d.subWidth h port)
    let mem := decide (sp < 3) && flit256
    let d := d.updPort h port fun q => { q with
      links := q.links.set sub { cxlMem := mem, up := true, speed := sp, width := w }, training := false }
    let d := if mem then d.raise h pg .linkUp sub else d
    if !mem || w < d.subWidth h port then d.raise h pg .linkDegraded sub else d

/-- `LINK_UP` (R69). -/
def execLinkUp (h : Half) (port sub speed width : Nat) (flit256 : Bool) (s : State) : Out :=
  onDev (fun d => d.linkUp h port sub speed width flit256) s

/-- A sub-link reset: hot reset or link down (R69, R85). -/
def Dev.subReset (d : Dev) (h : Half) (port sub : Nat) : Dev :=
  let d := d.updPort h port fun q => { q with links := q.links.set sub {} }
  ((d.resetLds h fun c => d.ldPort h c == port && d.ldSub h c == sub).mgmtReset h port sub).raise h (pgHPT port) .portReset sub

/-- Record a host reset made during Last Ferry: 16 for the port, or a sub-link (R85). -/
def Dev.recordReset (d : Dev) (h : Half) (port what : Nat) : Dev :=
  d.upd h fun x => { x with pwr := { x.pwr with hostResets := x.pwr.hostResets ++ [port * 32 + what] } }

/-- `LINK_DOWN` (R69): a sub-link reset, with `LINK_DOWN`. -/
def execLinkDown (h : Half) (port sub : Nat) (s : State) : Out :=
  onDevS (fun d =>
    if 4 ≤ port || !((((d.half h).ports.getD port {}).links.getD sub {}).up) then d
    else if d.inLf h then d.recordReset h port sub
    else (d.subReset h port sub).raise h (pgHPT port) .linkDown sub) s

/-- A port reset (R85). -/
def Dev.portReset (d : Dev) (h : Half) (port : Nat) : Dev :=
  let d := d.updPort h port fun q => { perstHigh := q.perstHigh }
  let d := d.resetLds h fun c => d.ldPort h c == port
  let d := (d.ctxs h).foldl (fun d c => if d.ldPort h c == port then d.spdmDrop fun r => r == 8 + d.ldNum h c else d) d
  let d := d.spdmDrop fun r => r == h.num * 4 + port
  ((List.range 4).foldl (fun d sub => d.mgmtReset h port sub) d).raise h (pgHPT port) .portReset

/-- `PERST_N_ASSERT` (R85). A port without power follows only the pin's level. -/
def execPerstNAssert (h : Half) (port : Nat) (s : State) : Out :=
  onDevS (fun d =>
    if 4 ≤ port then d
    else
      let d := d.updPort h port fun q => { q with perstHigh := false }
      if d.inLf h then d.recordReset h port 16
      else if d.islandDark h (Block.hpt.island port) then d
      else d.portReset h port) s

/-- `PERST_N_DEASSERT` (R85): the port's links start to train. -/
def execPerstNDeassert (h : Half) (port : Nat) (s : State) : Out :=
  onDev (fun d => d.updPort h port fun q => { q with perstHigh := true, training := true }) s

/-- `HOT_RESET` (R85). -/
def execHotReset (h : Half) (port sub : Nat) (s : State) : Out :=
  onDevS (fun d =>
    if 4 ≤ port || !((((d.half h).ports.getD port {}).links.getD sub {}).up) then d
    else if d.inLf h then d.recordReset h port sub
    else d.subReset h port sub) s

/-- `CXL_RESET` (R85): as for `PERST_N`, limited to one LD. -/
def execCxlReset (h : Half) (c : Nat) (s : State) : Out :=
  onDevS (fun d => if d.inLf h then d.recordReset h 8 c else d.resetLds h fun x => x == c) s

/-- `FLR` (R85): the LD's decoders and CXL.mem state stay. -/
def execFlr (h : Half) (c : Nat) (s : State) : Out :=
  onDev (fun d => if d.ldOn h c then (d.resetLd h c false).spdmDrop fun r => r == 8 + d.ldNum h c else d) s

/-- The decoder rules of R73 and of CXL 3.1's commit: supported interleave, 256 MiB multiples, order and no overlap. -/
def hdmOk (l : List Hdm) (i : Nat) (x : Hdm) : Bool :=
  decide (i < 8) && x.base % 2 ^ 28 == 0 && x.size % 2 ^ 28 == 0 && decide (0 < x.size)
    && [1, 2, 3, 4, 6, 8, 12, 16].contains x.ways && [256, 512, 1024, 2048, 4096, 8192, 16384].contains x.gran
    && x.size % (x.ways * 2 ^ 28) == 0
    && ((l.take i).all fun y => y.committed && decide (y.base + y.size ≤ x.base))
    && !((l.getD i {}).committed)

/-- `HDM_DECODER_COMMIT` (R73): the LD's host commits a decoder, which fails with the error indication where a rule does. -/
def execHdmDecoderCommit (h : Half) (c i base size skip ways gran : Nat) (hdmH : Bool) (s : State) : Out :=
  onDev (fun d =>
    if !(d.ldOn h c) || 8 ≤ i then d
    else d.updLd h c fun x =>
      let n : Hdm := { base := base, size := size, skip := skip, ways := ways, gran := gran }
      if (x.hdm.getD i {}).committed then x
      else if hdmH && hdmOk x.hdm i n then { x with hdm := x.hdm.set i { n with committed := true } }
      else { x with hdm := x.hdm.set i { n with error := true } }) s

/-! ### Fences, GPF and the event page -/

/-- `FENCE` (R47): a write of a token to `LDP.FENCE`. It is not journaled (R354). -/
def execFence (org : Origin) (h : Half) (c : Nat) (token : Word) (s : State) : Out :=
  onDev (fun d => d.command org h (pgLDP c) 0x100 token.toNat (fun d => some (d.ringFence h c token)) false false) s

/-- `FENCE_TIMEOUT` (R50): the oldest fence of an LD completes FAILED, reason TIMEOUT. -/
def execFenceTimeout (h : Half) (c : Nat) (s : State) : Out :=
  onDev (fun d =>
    match (d.ldc h c).fences with
    | [] => d
    | f :: fs =>
      let d := (d.updLd h c fun x => { x with fences := fs }).fenceDone h c f.target 4 3 f.token
      Dev.fencesLd h c (d.ldc h c).fences d) s

/-- `GPF_PHASE1` (R61): acknowledged at once. -/
def execGpfPhase1 (s : State) : Out := onDev (fun d => d.emit (.gpf 1)) s

/-- `GPF_PHASE2` (R61): a device-wide fence on the master's current sailing. -/
def execGpfPhase2 (s : State) : Out :=
  onDev (fun d => ({ d with gpf := some (d.half d.beacon).sail.current }).gpfCheck) s

/-- `GPF_LATE` (R61): phase 2 is completed anyway. -/
def execGpfLate (s : State) : Out :=
  onDev (fun d => match d.gpf with
    | some _ => (({ d with gpf := none }).emit (.gpf 2)).raise d.beacon pgSAIL .gpfLate
    | none => d) s

/-- A MASK bit of `EV_IRQ` written 1 over a set latch bit sends the message at once (R77). -/
def Dev.evIrqSend (d : Dev) (h : Half) (c v : Nat) : Dev :=
  if (bitsOf v 10 0) &&& (d.ldc h c).evLatch.toNat != 0 then d.emit (.msixLd (d.ldNum h c) (bitsOf v 26 16)) else d

end Sys2Proof.Machine
end

