-- ==== Sys2Proof/Machine/Mailbox.lean ====
section
/-! DEFINITION. Each LD's mailbox (R78 to R83), Dynamic Capacity (R72, R74) and CDAT (R88). Opcodes, return codes and
the choice of payload fields follow CXL 3.1 (PRESUMED, notes/assumptions/22.md); a payload is a list of numbers.
Log entries of notes/assumptions that bear on this file: PRESUMED 22, DEDUCED 24. -/

namespace Sys2Proof.Machine

/-! ### Return codes -/

def mbOk : Nat := 0
def mbBackground : Nat := 1
def mbInvalid : Nat := 2
def mbUnsupported : Nat := 3
def mbBusy : Nat := 6
def mbHandle : Nat := 0x0E
def mbAddress : Nat := 0x0F
def mbLog : Nat := 0x17
def mbExhausted : Nat := 0x1D

/-- The mailbox of an LD takes a command: the LD is enabled, its port has power, no foreground command runs, and a complex
serves the half (R78, R337). -/
def Dev.mboxOk (d : Dev) (h : Half) (c : Nat) : Bool :=
  d.ldOn h c && !(d.islandDark h (Block.hpt.island (d.ldPort h c))) && !(d.ldc h c).mboxBusy && !(d.mgmtLost h && !(d.served h))

/-- A mailbox command of an LD: `f` gives the return code, the payload and the change. Nothing happens where the mailbox
takes none. -/
def Dev.mbox (d : Dev) (h : Half) (c op : Nat) (f : Dev → Nat × List Nat × Dev) : Dev :=
  if !(d.mboxOk h c) then d
  else
    let r := f d
    r.2.2.emit (.mailbox (d.ldNum h c) op r.1 r.2.1)

/-- A command that only reports. -/
def Dev.mboxRead (d : Dev) (h : Half) (c op : Nat) (f : Dev → List Nat) : Dev :=
  d.mbox h c op fun d => (mbOk, f d, d)

/-! ### Events, firmware, time, logs -/

/-- A record as the payload gives it. -/
def CxlEvent.fields (e : CxlEvent) : List Nat :=
  [match e.kind with | .generalMedia => 1 | .dram => 2 | .memoryModule => 3 | .dynamicCapacity => 4 | .vendor => 5,
    e.addr, e.info, e.time, e.handle]

/-- The log a selector names. -/
def logSel : Nat → Option LogSel
  | 0 => some .info | 1 => some .warn | 2 => some .fail | 3 => some .fatal | 4 => some .dc | _ => none

/-- `GET_EVENT_RECORDS` (R78). -/
def execGetEventRecords (h : Half) (c log : Nat) (s : State) : Out :=
  onDev (fun d => d.mbox h c 0x0100 fun d => match logSel log with
    | none => (mbInvalid, [], d)
    | some k =>
      let l := (d.ldc h c).log k
      (mbOk, [bnum (decide (0 < l.overflow)), l.overflow, l.firstOverflow, l.lastOverflow, l.records.length]
        ++ l.records.flatMap (·.fields), d)) s

/-- `CLEAR_EVENT_RECORDS` (R78): by handle, oldest first, or all. Storage given back ends the overflow indication. -/
def execClearEventRecords (h : Half) (c log : Nat) (all : Bool) (handles : List Nat) (s : State) : Out :=
  onDev (fun d => d.mbox h c 0x0101 fun d => match logSel log with
    | none => (mbInvalid, [], d)
    | some k =>
      let l := (d.ldc h c).log k
      let keep := if all then [] else l.records.drop handles.length
      if !all && (l.records.take handles.length).map (·.handle) != handles then (mbHandle, [], d)
      else if keep.length = l.records.length then (mbOk, [], d)
      else (mbOk, [], d.updLd h c fun x => x.setLog { records := keep } k)) s

/-- `GET_EVENT_INTERRUPT_POLICY` (R78). -/
def execGetEventInterruptPolicy (h : Half) (c : Nat) (s : State) : Out :=
  onDev (fun d => d.mboxRead h c 0x0102 fun d => [(d.ldc h c).eventPolicy.toNat]) s

/-- `SET_EVENT_INTERRUPT_POLICY` (R78): one byte for each of the five logs. -/
def execSetEventInterruptPolicy (h : Half) (c : Nat) (policy : BitVec 40) (s : State) : Out :=
  onDev (fun d => d.mbox h c 0x0103 fun d => (mbOk, [], d.updLd h c fun x => { x with eventPolicy := policy })) s

/-- `GET_FW_INFO` (R78): two slots, the one that runs, and its version. -/
def execGetFwInfo (h : Half) (c : Nat) (s : State) : Out :=
  onDev (fun d => d.mboxRead h c 0x0200 fun d => [2, (d.half h).boot.slot + 1, (d.half h).boot.version]) s

/-- `GET_TIMESTAMP` (R78). -/
def execGetTimestamp (h : Half) (c : Nat) (s : State) : Out :=
  onDev (fun d => d.mboxRead h c 0x0300 fun d => [d.time]) s

/-- `SET_TIMESTAMP` (R78, R349): the one device time; the setting is journaled at the LD's page, word 0
(DEDUCED, notes/assumptions/24.md). -/
def execSetTimestamp (h : Half) (c : Nat) (t : BitVec 64) (s : State) : Out :=
  onDev (fun d => d.mbox h c 0x0301 fun d =>
    (mbOk, [], ({ d with time := t.toNat }).journalCmd (.ld (d.ldNum h c)) h (pgLDP c) 0 t.toNat true rCOMMAND)) s

/-- The opcodes of R78 with their effects, as the Command Effects Log lists them. -/
def mbEffects : List (Nat × Nat) :=
  [(0x0100, 0), (0x0101, 0x10), (0x0102, 0), (0x0103, 0x08), (0x0200, 0), (0x0300, 0), (0x0301, 0x08), (0x0400, 0),
    (0x0401, 0), (0x4000, 0), (0x4100, 0), (0x4102, 0), (0x4103, 0x04), (0x4200, 0), (0x4201, 0), (0x4202, 0x08),
    (0x4203, 0), (0x4204, 0x08), (0x4300, 0), (0x4301, 0x04), (0x4302, 0x04), (0x4303, 0), (0x4304, 0x40), (0x4305, 0),
    (0x4400, 0x64), (0x4401, 0x64), (0x4800, 0), (0x4801, 0), (0x4802, 0x02), (0x4803, 0x02)]

/-- `GET_SUPPORTED_LOGS` (R78): the Command Effects Log only, with its size. -/
def execGetSupportedLogs (h : Half) (c : Nat) (s : State) : Out :=
  onDev (fun d => d.mboxRead h c 0x0400 fun _ => [1, 4 * mbEffects.length]) s

/-- `GET_LOG` (R78): `cel` says that the identifier names the Command Effects Log. -/
def execGetLog (h : Half) (c : Nat) (cel : Bool) (off len : Nat) (s : State) : Out :=
  onDev (fun d => d.mbox h c 0x0401 fun d =>
    if !cel then (mbLog, [], d)
    else if 4 * mbEffects.length < off + len then (mbInvalid, [], d)
    else (mbOk, ((mbEffects.flatMap fun e => [e.1 % 256, e.1 / 256, e.2 % 256, e.2 / 256]).drop off).take len, d)) s

/-! ### Capacity (R72 to R74) -/

/-- 64 MiB units of an LD's Dynamic Capacity extents. -/
def Dev.dcUnits (d : Dev) (h : Half) (c : Nat) : Nat := lsum ((d.ldc h c).extents.map (·.len))

/-- `IDENTIFY_MEMORY_DEVICE` (R78): total and persistent capacity in 64 MiB units, volatile 0, LSA size, list size. -/
def execIdentifyMemoryDevice (h : Half) (c : Nat) (s : State) : Out :=
  onDev (fun d => d.mboxRead h c 0x4000 fun d =>
    let p := 4 * (d.reg h (pgLDP c) 0x050).toNat + d.dcUnits h c
    [p, 0, p, 131072, 2048]) s

/-- `GET_PARTITION_INFO` (R78): volatile and persistent, active and next. -/
def execGetPartitionInfo (h : Half) (c : Nat) (s : State) : Out :=
  onDev (fun d => d.mboxRead h c 0x4100 fun d => [0, (d.reg h (pgLDP c) 0x050).toNat, 0, 0]) s

/-- `DC_CFG`: regions, block in 64 MiB units, and length of each region in 64 MiB units. -/
def Dev.dcCfg (d : Dev) (h : Half) (c : Nat) : Nat × Nat × Nat :=
  (d.fld h (pgLDP c) 0x054 3 0, 4 ^ d.fld h (pgLDP c) 0x054 5 4, d.fld h (pgLDP c) 0x054 29 8)

/-- Region n starts at the static size rounded up to 1 GiB, plus n × REGION_LEN, in 64 MiB units (R72). -/
def Dev.regionBase (d : Dev) (h : Half) (c n : Nat) : Nat :=
  ((d.reg h (pgLDP c) 0x050).toNat * 4 + 15) / 16 * 16 + n * (d.dcCfg h c).2.2

/-- `GET_DYNAMIC_CAPACITY_CONFIGURATION` (R72). -/
def execGetDynamicCapacityConfiguration (h : Half) (c : Nat) (s : State) : Out :=
  onDev (fun d => d.mboxRead h c 0x4800 fun d =>
    let g := d.dcCfg h c
    g.1 :: (List.range g.1).flatMap fun n => [d.regionBase h c n, g.2.2, g.2.1]) s

/-- `GET_DYNAMIC_CAPACITY_EXTENT_LIST` (R72): LDA, DPA and length of the extents accepted and not released. -/
def execGetDynamicCapacityExtentList (h : Half) (c start count : Nat) (s : State) : Out :=
  onDev (fun d => d.mbox h c 0x4801 fun d =>
    let l := (d.ldc h c).extents.filter fun e => !e.releasing
    if l.length < start then (mbInvalid, [], d)
    else (mbOk, l.length :: ((l.drop start).take count).flatMap fun e => [e.lda, e.dpa, e.len], d)) s

/-- Every run of DPA taken in the device, offered runs included: (base, length) in 64 MiB units. -/
def Dev.dpaTaken (d : Dev) : List (Nat × Nat) :=
  d.allLds.flatMap fun e => ((d.extents e.1 e.2) ++ (d.ldc e.1 e.2).offered).map fun x => (x.dpa, x.len)

/-- A run is free of taken ones. -/
def runFree (taken : List (Nat × Nat)) (a n : Nat) : Bool := taken.all fun t => decide (a + n ≤ t.1) || decide (t.1 + t.2 ≤ a)

/-- First free run of a length from `lo` below `hi`, aligned to a block: the candidates are the start and every end of a
taken run. -/
def firstFree (taken : List (Nat × Nat)) (lo hi blk n : Nat) : Option Nat :=
  (lo :: taken.map fun t => (max lo (t.1 + t.2) + blk - 1) / blk * blk).find? fun a =>
    a % blk == 0 && decide (lo ≤ a) && decide (a + n ≤ hi) && runFree taken a n

/-- `DC_ADD` (R72, R74): an offer of `len` 64 MiB units in a region, over the FM API. The device chooses the DPA in the
home half's pool: a free choice where it is possible, else the first free run. -/
def execDcAdd (ld region len : Nat) (s : State) : Out :=
  onDev (fun d =>
    let answer (d : Dev) (code : Nat) := d.emit (.fmResponse 0x5604 code [])
    match d.findLd ld with
    | none => answer d mbInvalid
    | some (h, c) =>
      let g := d.dcCfg h c
      let x := d.ldc h c
      if g.1 ≤ region || len = 0 || len % g.2.1 != 0 then answer d mbInvalid
      else if 1024 ≤ (d.extents h c).length + x.offered.length then answer d mbExhausted
      else
        let home : Half := if d.fld h (pgLDP c) 0x060 0 0 = 1 then .east else .west
        let lo := home.num * 2 ^ 25
        let hi := lo + (d.half home).tier.backed / 1024
        let rb := d.regionBase h c region
        let ldas := (x.extents ++ x.offered).map fun e => (e.lda, e.len)
        let pick := lo + Config.freeNat d.freeCtr % max 1 ((hi - lo) / g.2.1) * g.2.1
        let d := { d with freeCtr := d.freeCtr + 1 }
        let dpa := if d.single && home == .east then none
          else if decide (pick + len ≤ hi) && runFree d.dpaTaken pick len then some pick
          else firstFree d.dpaTaken lo hi g.2.1 len
        match dpa, firstFree ldas rb (rb + g.2.2) g.2.1 len with
        | some a, some l =>
          let e : Extent := { region := region, lda := l, dpa := a, len := len }
          answer ((d.updLd h c fun x => { x with offered := x.offered ++ [e] }).logEvent h c .dynamicCapacity (a * 2 ^ 20) 0) mbOk
        | _, _ => answer d mbExhausted) s

/-- The part of an offered or accepted extent that a host names. -/
def partOf (l : List Extent) (p : Nat × Nat) : Option Extent :=
  (l.find? fun e => decide (e.dpa ≤ p.1) && decide (p.1 + p.2 ≤ e.dpa + e.len) && !e.releasing).map fun e =>
    { e with lda := e.lda + (p.1 - e.dpa), dpa := p.1, len := p.2 }

/-- Runs that a host names: whole blocks, apart from each other. -/
def runsOk (blk : Nat) : List (Nat × Nat) → Bool
  | [] => true
  | p :: ps => decide (0 < p.2) && p.1 % blk == 0 && p.2 % blk == 0 && runFree ps p.1 p.2 && runsOk blk ps

/-- `ADD_DYNAMIC_CAPACITY_RESPONSE` (R72): the host accepts all, part or none of what was offered; the rest goes back. -/
def execAddDynamicCapacityResponse (h : Half) (c : Nat) (runs : List (Nat × Nat)) (s : State) : Out :=
  onDev (fun d => d.mbox h c 0x4802 fun d =>
    let x := d.ldc h c
    let new := runs.filterMap (partOf x.offered)
    if !(runsOk (d.dcCfg h c).2.1 runs) || new.length != runs.length then (mbAddress, [], d)
    else if 1024 < (d.extents h c).length + new.length then (mbExhausted, [], d)
    else (mbOk, [], d.updLd h c fun x => { x with extents := x.extents ++ new, offered := [] })) s

/-- Cut a run out of an extent, marking it as being released. -/
def cutExtent (p : Nat × Nat) (e : Extent) : List Extent :=
  if e.dpa ≤ p.1 ∧ p.1 + p.2 ≤ e.dpa + e.len ∧ !e.releasing then
    (if e.dpa < p.1 then [{ e with len := p.1 - e.dpa }] else [])
      ++ [{ e with lda := e.lda + (p.1 - e.dpa), dpa := p.1, len := p.2, releasing := true }]
      ++ (if p.1 + p.2 < e.dpa + e.len then
          [{ e with lda := e.lda + (p.1 + p.2 - e.dpa), dpa := p.1 + p.2, len := e.dpa + e.len - (p.1 + p.2) }] else [])
  else [e]

/-- `RELEASE_DYNAMIC_CAPACITY` (R74): the named runs take no new access. -/
def execReleaseDynamicCapacity (h : Half) (c : Nat) (runs : List (Nat × Nat)) (s : State) : Out :=
  onDev (fun d => d.mbox h c 0x4803 fun d =>
    let x := d.ldc h c
    if !(runsOk (d.dcCfg h c).2.1 runs) || !(runs.all fun p => (partOf x.extents p).isSome) then (mbAddress, [], d)
    else
      let l := runs.foldl (fun l p => l.flatMap (cutExtent p)) x.extents
      if 1024 < (d.extents h c).length - x.extents.length + l.length then (mbExhausted, [], d)
      else (mbOk, [], d.updLd h c fun x => { x with extents := l })) s

/-- In-half tiles of a run of DPA that have a Manifest entry. -/
def Dev.tilesIn (d : Dev) (dpa len : Nat) : List (Half × Nat) :=
  d.halves.flatMap fun k => ((d.half k).tier.manf.filter fun e =>
    decide (dpa * 1024 ≤ tileNo k e.1) && decide (tileNo k e.1 < (dpa + len) * 1024)).map fun e => (k, e.1)

/-- Make a run BLANK, once no access and no transition of its tiles is left; none while one is (R74, R104). -/
def Dev.blankRun (d : Dev) (dpa len : Nat) : Option Dev :=
  let ts := d.tilesIn dpa len
  if ts.any fun t => d.inFabric t.1 t.2 || d.inTransition t.1 t.2 then none
  else some (ts.foldl (fun d t => d.releaseTile t.1 t.2) d)

/-- `DC_RELEASE_EFFECT` (R74): the oldest released extent ends, and its tiles become BLANK. -/
def execDcReleaseEffect (h : Half) (c : Nat) (s : State) : Out :=
  onDev (fun d => match (d.ldc h c).extents.find? (·.releasing) with
    | none => d
    | some e => match d.blankRun e.dpa e.len with
      | none => d
      | some d => (d.updLd h c fun x => { x with extents := x.extents.erase e }).note) s

/-! ### Labels (R81) -/

/-- Bytes one label command moves at most: 16 KiB less its header of 8 bytes. -/
def lsaMax : Nat := 16376

/-- `GET_LSA` (R81). -/
def execGetLsa (h : Half) (c off len : Nat) (s : State) : Out :=
  onDev (fun d => d.mbox h c 0x4102 fun d =>
    if 131072 < off + len || lsaMax < len then (mbInvalid, [], d)
    else (mbOk, (List.range len).map fun i =>
      (((d.ldc h c).labels.find? fun b => b.1 == off + i).map (·.2.toNat)).getD 0, d)) s

/-- Label storage with a run of bytes written; zero bytes are unlisted and addresses rise. -/
def labelPut (l : List Host.Cell) (off : Nat) (b : List Byte) : List Host.Cell :=
  (l.filter fun x => decide (x.1 < off))
    ++ ((b.zipIdx.filter fun x => x.1 != 0).map fun x => (off + x.2, x.1))
    ++ (l.filter fun x => decide (off + b.length ≤ x.1))

/-- `SET_LSA` (R81): stamped in the LD's home half and complete at that sailing's seal. -/
def execSetLsa (h : Half) (c off : Nat) (bytes : List Byte) (s : State) : Out :=
  onDev (fun d =>
    let big := decide (131072 < off + bytes.length) || decide (lsaMax < bytes.length)
    if big then d.mbox h c 0x4103 fun d => (mbInvalid, [], d)
    else if !(d.mboxOk h c) then d
    else
      let home : Half := if d.fld h (pgLDP c) 0x060 0 0 = 1 then .east else .west
      let d := d.updLd h c fun x => { x with labels := labelPut x.labels off bytes, mboxBusy := true }
      d.upd home fun x => { x with sail := { x.sail with
        strict := x.sail.strict ++ [{ src := .mailbox h c, ld := d.ldNum h c, sailing := x.sail.current }] } }) s

/-! ### Health (R80) -/

/-- A DDR5 channel of the device has failed. -/
def Dev.chanFailed (d : Dev) : Bool := d.halves.any fun h =>
  (d.half h).dram.chans.any fun c => c.sub0.state == .failed || c.sub1.state == .failed

/-- Life used in percent (R80): NAND wear, or the reserve of good blocks consumed, whichever is higher. -/
def Dev.lifeUsed (d : Dev) : Nat :=
  d.halves.foldl (fun m h =>
    let bad := d.badStripes h * (d.half h).flash.pages
    max m (max (Config.nandWear (lsum ((d.half h).flash.stripes.map fun e => e.2.erases)))
      (if bad = 0 then 0 else 100 * bad / (bad + d.opLeft h)))) 0

/-- `GET_HEALTH_INFO` (R80): health status, media status, life used, temperature, dirty shutdown count, corrections. -/
def execGetHealthInfo (h : Half) (c : Nat) (s : State) : Out :=
  onDev (fun d => d.mboxRead h c 0x4200 fun d =>
    let x := d.ldc h c
    let hard := d.halves.any fun k => decide (0 < d.hardOpen k)
    let disarmed := d.halves.any fun k => d.ldIn h c k && !(d.armed k)
    [bnum hard + 4 * bnum d.chanFailed, if d.accessRefused h c || !(d.mediaUp h) then 1 else if disarmed then 4 else 0,
      d.lifeUsed, max (d.fld .west pgTHRM 0x044 31 24) (d.fld .east pgTHRM 0x044 31 24), x.dirtyCount, x.corrected]) s

/-- `GET_ALERT_CONFIGURATION` (R80). -/
def execGetAlertConfiguration (h : Half) (c : Nat) (s : State) : Out :=
  onDev (fun d => d.mboxRead h c 0x4201 fun d => [(d.ldc h c).alertConfig.toNat]) s

/-- `SET_ALERT_CONFIGURATION` (R80). -/
def execSetAlertConfiguration (h : Half) (c : Nat) (cfg : BitVec 96) (s : State) : Out :=
  onDev (fun d => d.mbox h c 0x4202 fun d => (mbOk, [], d.updLd h c fun x => { x with alertConfig := cfg })) s

/-- `GET_SHUTDOWN_STATE` (R80). -/
def execGetShutdownState (h : Half) (c : Nat) (s : State) : Out :=
  onDev (fun d => d.mboxRead h c 0x4203 fun d => [bnum (d.ldc h c).shutdownDirty]) s

/-- `SET_SHUTDOWN_STATE` (R80). -/
def execSetShutdownState (h : Half) (c : Nat) (dirty : Bool) (s : State) : Out :=
  onDev (fun d => d.mbox h c 0x4204 fun d => (mbOk, [], d.updLd h c fun x => { x with shutdownDirty := dirty })) s

/-! ### Poison (R79) -/

/-- The LDA of a line of an LD in the poison list, where the LD holds it. -/
def Dev.ldHolds (d : Dev) (h : Half) (c line : Nat) : Bool :=
  (d.extents h c).any fun e => decide (e.dpa ≤ line / 2 ^ 20) && decide (line / 2 ^ 20 < e.dpa + e.len)

/-- `GET_POISON_LIST` (R79): overflow flag and timestamp, then (LDA, source) of the LD's entries in a range of LDA. -/
def execGetPoisonList (h : Half) (c lda len : Nat) (s : State) : Out :=
  onDev (fun d => d.mboxRead h c 0x4300 fun d =>
    let x := d.ldc h c
    let l := (d.halves.flatMap fun k => (d.half k).ecc.poison.filter fun e => d.ldHolds h c e.1).map fun e =>
      (d.ldaOf h c e.1, e.2)
    let l := l.filter fun e => decide (lda ≤ e.1) && decide (e.1 < lda + len)
    [bnum x.poisonOverflow, x.poisonOverflowTime, l.length] ++ l.flatMap fun e => [e.1, e.2]) s

/-- A poison command's write (R79): aligned and mapped, else Invalid Input; it completes at its seal. -/
def Dev.poisonWrite (d : Dev) (h : Half) (c op lda : Nat) (kind : ReqKind) : Dev :=
  let x := d.ldc h c
  match if lda % 64 = 0 && !x.mediaDisabled && !(d.accessRefused h c) && d.mediaUp h then d.ldaLine h c lda else none with
  | none => d.mbox h c op fun d => (mbInvalid, [], d)
  | some n =>
    if !(d.mboxOk h c) then d
    else if x.writeRefused then d.mbox h c op fun d => (mbOk, [], d)
    else
      (d.updLd h c fun x => { x with mboxBusy := true, inFlight := x.inFlight + 1 }).portWrite h
        { src := .mailbox h c, ld := d.ldNum h c, line := n, kind := kind }

/-- `INJECT_POISON` (R79): the line keeps its bytes and gets its poison bit. -/
def execInjectPoison (h : Half) (c lda : Nat) (s : State) : Out :=
  onDevS (fun d => d.poisonWrite h c 0x4301 lda (.write 0 0 true)) s

/-- `CLEAR_POISON` (R79): the supplied 64 bytes with the poison bit clear. -/
def execClearPoison (h : Half) (c lda : Nat) (data : LineData) (s : State) : Out :=
  onDevS (fun d => d.poisonWrite h c 0x4302 lda (.write data fullMask false)) s

/-- `GET_SCAN_MEDIA_CAPABILITIES` (R79): the time in ms that a range takes at 20 GB/s. -/
def execGetScanMediaCapabilities (h : Half) (c _lda len : Nat) (s : State) : Out :=
  onDev (fun d => d.mboxRead h c 0x4303 fun _ => [(len + 19999999) / 20000000]) s

/-- `SCAN_MEDIA` (R79, R83): a background command on a range of LDA. -/
def execScanMedia (h : Half) (c lda len : Nat) (s : State) : Out :=
  onDev (fun d => d.mbox h c 0x4304 fun d =>
    if (d.ldc h c).bg.isSome then (mbBusy, [], d)
    else if lda % 64 != 0 || len % 64 != 0 || len = 0 then (mbInvalid, [], d)
    else (mbBackground, [], d.updLd h c fun x => { x with bg := some (.scan lda len) })) s

/-- Scan a tile of an LD: the poisoned lines of its frame and cache, or of its NAND image; an uncorrectable line is found
as any read finds it. -/
def Dev.scanTile (d : Dev) (k : Half) (t : Nat) : List Nat × Dev :=
  let e := d.tile k t
  if TileStateResident e.state then
    (List.range 1024).foldl (fun a j =>
      let line := lineOf k t j
      match a.2.landFind k line with
      | some (_, le) => (if (decodeLine line false none le.line).tags.poison then line :: a.1 else a.1, a.2)
      | none =>
        let f := e.frame.toNat
        match smGet (a.2.half k).tier.dram (f * 1024 + j) with
        | none => a
        | some _ =>
          let p := a.2.frameRead k f j line {}
          match p.1.verdict with
          | .bad _ => (line :: a.1, if (p.2.repairOf k line).isSome then p.2 else p.2.repairStart k line f p.1 [])
          | _ => (if p.1.tags.poison then line :: a.1 else a.1, p.2)) ([], d)
  else if e.state = .nandOnly then
    match d.nandImg k e.nand.toNat with
    | some i => ((List.range 1024).filterMap fun j => if i.poison.getLsbD j then some (lineOf k t j) else none, d)
    | none => ([], d)
  else ([], d)

/-- `SCAN_MEDIA_DONE` (R79): the list of the range is rebuilt; a scan of the whole LD clears the overflow flag. -/
def execScanMediaDone (h : Half) (c : Nat) (s : State) : Out :=
  onDevS (fun d => match (d.ldc h c).bg with
    | some (.scan lda len) =>
      let inRange (d : Dev) (line : Nat) : Bool :=
        d.ldHolds h c line && decide (lda ≤ d.ldaOf h c line) && decide (d.ldaOf h c line < lda + len)
      let ts := (d.extents h c).flatMap fun e => d.tilesIn e.dpa e.len
      let r := ts.foldl (fun a t =>
        let p := a.2.scanTile t.1 t.2
        (a.1 ++ p.1, p.2)) (([] : List Nat), d)
      let found := r.1.filter fun l => inRange r.2 l
      let d := r.2
      let d := d.eachHalf fun d k => d.upd k fun x => { x with ecc := { x.ecc with
        poison := x.ecc.poison.filter fun e => !(inRange d e.1) || found.contains e.1 } }
      let d := found.foldl (fun d l => d.poisonList (lineHalf l) l 1) d
      let whole := (d.extents h c).all fun e => decide (lda ≤ e.lda * 2 ^ 26) && decide ((e.lda + e.len) * 2 ^ 26 ≤ lda + len)
      (d.updLd h c fun x => { x with
        bg := none, bgReturn := mbOk, scanResults := found.map fun l => (d.ldaOf h c l, 64)
        poisonOverflow := x.poisonOverflow && !whole }).emit (.mailbox (d.ldNum h c) 0x4304 mbOk [])
    | _ => d) s

/-- `GET_SCAN_MEDIA_RESULTS` (R79). -/
def execGetScanMediaResults (h : Half) (c : Nat) (s : State) : Out :=
  onDev (fun d => d.mboxRead h c 0x4305 fun d =>
    let l := (d.ldc h c).scanResults
    l.length :: l.flatMap fun e => [e.1, e.2]) s

/-! ### Sanitize and Secure Erase (R82, R83, R277) -/

/-- Set MEDIA_DISABLED and latch what rises. -/
def Dev.setMedia (d : Dev) (h : Half) (c : Nat) (on : Bool) : Dev :=
  (d.updLd h c fun x => { x with mediaDisabled := on }).noteLd h c

/-- Halves in which an erase by a half runs now: both, or the commanding one alone while Split, when the other half
zeroises first after the Ford returns (R274, R278). -/
def Dev.eraseHalves (d : Dev) (h : Half) (n : Nat) : List Half × Dev :=
  if d.split then
    ([h], d.upd h.other fun x => { x with ciph := { x.ciph with zeroPending := x.ciph.zeroPending ++ [n] } })
  else (d.halves, d)

/-- Erase one slot of an LD and install fresh keys in the lowest free slot, committed to `LDP.KEY` (R277). -/
def Dev.renewSlot (d : Dev) (h : Half) (c n : Nat) : Dev :=
  match d.freeSlot [] with
  | none => d
  | some m =>
    let e := d.eraseHalves h n
    let d := (e.2.eraseBegin n e.1).slotBoth m fun k => { k with owner := some (d.ldNum h c) }
    (d.generate m false).hwChange 17 h (pgLDP c) 0x078 m

/-- Steps 1 and 2 of R82. -/
def Dev.eraseLd (d : Dev) (h : Half) (c : Nat) : Dev :=
  (d.slotsOf (d.ldNum h c)).foldl (fun d n => d.renewSlot h c n) (d.setMedia h c true)

/-- Free slots that an erase of an LD can take. -/
def Dev.freeSlots (d : Dev) : Nat := ((List.range 1024).filter fun n => d.ownsSlot n
  && (d.kslot .west n).state == .empty && !(d.kslot .west n).walking && (d.kslot .west n).owner.isNone).length

/-- Start a Sanitize or Secure Erase (R82, R83). -/
def Dev.eraseStart (d : Dev) (h : Half) (c op : Nat) (bg : BgOp) : Dev :=
  d.mbox h c op fun d =>
    if (d.ldc h c).bg.isSome || (d.split && d.crossLd h c) then (mbBusy, [], d)
    else if d.freeSlots < (d.slotsOf (d.ldNum h c)).length then (mbExhausted, [], d)
    else
      let d := (d.updLd h c fun x => { x with bg := some bg }).eraseLd h c
      let d := if d.solo && d.twinPaired h then
          (d.updLd h c fun x => { x with sanitizeTwin := true }).raise h (pgHPT (d.ldPort h c)) .sanitizeTwinPending (d.ldNum h c)
        else d
      (mbBackground, [], d)

/-- `SANITIZE` (R82). -/
def execSanitize (h : Half) (c : Nat) (s : State) : Out := onDevS (fun d => d.eraseStart h c 0x4400 .sanitize) s

/-- `SECURE_ERASE` (R82). -/
def execSecureErase (h : Half) (c : Nat) (s : State) : Out := onDevS (fun d => d.eraseStart h c 0x4401 .secureErase) s

/-- `SANITIZE_WALK_DONE` (R82 steps 4 to 6): the LD's tiles are BLANK, once none is in a transition; the command ends. -/
def execSanitizeWalkDone (h : Half) (c : Nat) (s : State) : Out :=
  onDevS (fun d =>
    let fin (op : Nat) (zero : Bool) : Dev :=
      match (d.extents h c).foldl (fun o e => o.bind fun d => d.blankRun e.dpa e.len) (some d) with
      | none => d
      | some d =>
        let d := d.updLd h c fun x => { x with bg := none, bgReturn := mbOk, labels := if zero then [] else x.labels }
        (d.setMedia h c false).emit (.mailbox (d.ldNum h c) op mbOk [])
    match (d.ldc h c).bg with
    | some .sanitize => fin 0x4400 true
    | some .secureErase => fin 0x4401 false
    | _ => d) s

/-- `MAILBOX_UNSUPPORTED` (R78): any other opcode. -/
def execMailboxUnsupported (h : Half) (c op : Nat) (s : State) : Out :=
  onDev (fun d => d.mbox h c op fun d => (mbUnsupported, [], d)) s

/-! ### CDAT (R86 to R88) -/

/-- Serialisation time in ns of one 256-byte flit on the LD's link (R86): 2 ns at x16 and 64 GT/s. -/
def Dev.flitNs (d : Dev) (h : Half) (c : Nat) : Nat :=
  let l := ((d.half h).ports.getD (d.ldPort h c) {}).links.getD (d.ldSub h c) {}
  2 * 2 ^ (5 - min 5 l.width) * 2 ^ l.speed

/-- Bandwidth in 10 MB/s of a link (R87), by its flit time. -/
def linkBw (flit : Nat) : Nat :=
  if flit ≤ 2 then 11300 else if flit ≤ 4 then 5650 else if flit ≤ 8 then 2825 else if flit ≤ 16 then 1410 else 710

/-- `CDAT_REQUEST` (R88): for each extent its LDA, length and non-volatile flag, then read latency, write latency and
bandwidths of the link. -/
def execCdatRequest (h : Half) (c : Nat) (s : State) : Out :=
  onDev (fun d =>
    if !(d.ldOn h c) then d
    else
      let f := d.flitNs h c
      let wr := if d.strictMode h c then 11018 + f else 58 + f
      d.emit (.cdat (d.ldNum h c) ((d.extents h c).flatMap fun e =>
        [e.lda, e.len, 1, 88 + f + (if homeOfUnit e.dpa = h then 0 else 20), wr, linkBw f, linkBw f]))) s

end Sys2Proof.Machine
end

