-- ==== Sys2Proof/Machine/Boot.lean ====
section
/-! DEFINITION. Chapter 11: the OTP row and its commands (R282, R283, R293, R297), keys from the secret (R284), the boot
ROM (R286 to R291), firmware update (R292) and measurements (R294, R298).
Log entries of notes/assumptions that bear on this file: PRESUMED 13, DESIGN CHOICE 35, DEDUCED 36, DESIGN CHOICE 49. -/

namespace Sys2Proof.Machine

/-! ### The OTP row (R282) -/

/-- The three copies of a field, in order. -/
def Triple.bytes {n : Nat} (t : Triple n) (k : Nat) : List Nat := toLe k t.a.toNat ++ toLe k t.b.toNat ++ toLe k t.c.toNat

/-- Bytes 0 to 171 of a row. -/
def OtpRow.onceBytes (o : OtpRow) : List Nat :=
  toLe 32 o.secret.toNat ++ toLe 64 o.signer0.toNat ++ toLe 64 o.signer1.toNat ++ toLe 8 o.serial.toNat ++ toLe 2 o.config.toNat
    ++ [0, 0]

/-- Bytes 0 to 223 of a row, the critical fields. -/
def OtpRow.critical (o : OtpRow) : List Nat :=
  o.onceBytes ++ toLe 4 o.wcrc.toNat ++ o.svn.bytes 8 ++ o.lifecycle.bytes 2 ++ o.strapLock.bytes 2 ++ o.strapVal.bytes 2
    ++ o.revoke.bytes 2

/-- A CRC-32C over bytes (R406). -/
def crcBytes (l : List Nat) : Nat := crc32c l

/-- Both write-once blocks of a row pass their CRC. -/
def OtpRow.crcOk (o : OtpRow) : Bool :=
  crcBytes o.onceBytes == o.wcrc.toNat && crcBytes (toLe 284 o.repair.toNat) == o.rcrc.toNat

/-- The write-once critical fields of two rows agree. -/
def OtpRow.sameOnce (o p : OtpRow) : Bool := o.onceBytes == p.onceBytes && o.wcrc == p.wcrc

/-- The counted fields, each in three copies. -/
inductive OtpFld where
  | svn | life | strapLock | strapVal | revoke
  deriving DecidableEq, Repr

/-- Program a bit of one copy. Bits are only ever set (R283). -/
def Triple.burn {n : Nat} (t : Triple n) (copy bit : Nat) : Triple n :=
  match copy with
  | 0 => { t with a := t.a ||| BitVec.twoPow n bit }
  | 1 => { t with b := t.b ||| BitVec.twoPow n bit }
  | _ => { t with c := t.c ||| BitVec.twoPow n bit }

/-- Program a bit of one copy of a field. -/
def OtpRow.burn (o : OtpRow) (f : OtpFld) (bit copy : Nat) : OtpRow :=
  match f with
  | .svn => { o with svn := o.svn.burn copy bit }
  | .life => { o with lifecycle := o.lifecycle.burn copy bit }
  | .strapLock => { o with strapLock := o.strapLock.burn copy bit }
  | .strapVal => { o with strapVal := o.strapVal.burn copy bit }
  | .revoke => { o with revoke := o.revoke.burn copy bit }

/-- Program bits of a row, each in copy 1, copy 2 and copy 3 (R282). -/
def OtpRow.program (o : OtpRow) (bits : List (OtpFld × Nat)) : OtpRow :=
  bits.foldl (fun o b => [0, 1, 2].foldl (fun o c => o.burn b.1 b.2 c) o) o

/-- Bits of a number below a width. -/
def setBits (w v : Nat) : List Nat := (List.range w).filter fun i => v.testBit i

/-- Low bit and width of a strap's value by its index (R282, R365). -/
def strapField : Nat → Nat × Nat
  | 0 => (0, 2) | 1 => (2, 3) | 2 => (5, 3) | 3 => (8, 2) | 4 => (10, 2) | 5 => (12, 1) | _ => (13, 1)

/-- Mask of the value bits of the straps that are locked. -/
def lockedMask (lock : Nat) : Nat :=
  ((List.range 7).filter fun i => lock.testBit i).foldl (fun m i => m ||| (2 ^ (strapField i).2 - 1) * 2 ^ (strapField i).1) 0

/-- Bit pattern of a lifecycle state (R283). -/
def lifePattern : Nat → Nat
  | 1 => 0x0003 | 2 => 0x000F | 3 => 0x003F | 4 => 0xFFFF | _ => 0

/-- The bits that a row is programmed with to match the other half's counted fields: the more advanced value of each (R290). -/
def OtpRow.mergeBits (o p : OtpRow) : List (OtpFld × Nat) :=
  let add (f : OtpFld) (w : Nat) (mine his : Nat) : List (OtpFld × Nat) :=
    ((setBits w his).filter fun i => !(mine.testBit i)).map fun i => (f, i)
  add .svn 64 o.svn.vote.toNat (2 ^ p.svnOf - 1)
    ++ (if o.life < p.life then add .life 16 o.lifecycle.vote.toNat (lifePattern p.life) else [])
    ++ add .strapVal 16 o.strapVal.vote.toNat (p.strapVal.vote.toNat &&& lockedMask p.strapLock.vote.toNat)
    ++ add .strapLock 16 o.strapLock.vote.toNat p.strapLock.vote.toNat
    ++ add .revoke 16 o.revoke.vote.toNat p.revoke.vote.toNat

/-! ### Keys (R284) -/

/-- Output of HKDF for a label, with the device's serial number (R284). -/
def deviceKey (secret serial : Nat) (label : String) (len : Nat) : List Nat :=
  hkdf (List.replicate 64 0) (toLe 32 secret) (ascii label ++ toLe 8 serial) len

/-- The keys of a row. In RMA an all-zero secret is used (R283). -/
def OtpRow.keys (o : OtpRow) : DevKeys :=
  let s := if o.life = 3 then 0 else o.secret.toNat
  let k (label : String) (len : Nat) : List Nat := deviceKey s o.serial.toNat label len
  { identity := toScalar (fromBe (k "FSC identity" 80)), keyLoad := toScalar (fromBe (k "FSC key load" 80))
    recMac := BitVec.ofNat 256 (fromLe (k "FSC record mac" 32)), recWrap := BitVec.ofNat 256 (fromLe (k "FSC record wrap" 32)) }

/-! ### Images (R287, R288) -/

/-- Header bytes as numbers. -/
def Image.hdr (i : Image) (lo len : Nat) : List Nat := ((i.header.map (·.toNat)).drop lo).take len
def Image.svn (i : Image) : Nat := fromLe (i.hdr 12 1)
def Image.signer (i : Image) : Nat := fromLe (i.hdr 13 1)
def Image.version (i : Image) : Nat := fromLe (i.hdr 16 4)
def Image.bodyLen (i : Image) : Nat := fromLe (i.hdr 20 4)
def Image.bodyHash (i : Image) : List Nat := i.hdr 183 64
def Image.bodyBytes (i : Image) : List Nat := (i.body.map (·.toNat)).take i.bodyLen

/-- Steps 1 to 4 of R288: 0, or the result code. -/
def Image.check14 (i : Image) (o : OtpRow) : Nat :=
  let zero (lo len : Nat) : Bool := (i.hdr lo len).all (· == 0)
  if i.header.length != 512 || i.hdr 0 8 != ascii "FSCIMAGE" || !(zero 8 4) || !(zero 14 2) || !(zero 24 159)
      || decide (3145728 < i.bodyLen) || decide (1 < i.signer) then 2
  else if sha512 (i.hdr 379 133) != toLe 64 (if i.signer = 0 then o.signer0 else o.signer1).toNat then 4
  else if o.revoke.vote.getLsbD i.signer then 5
  else if i.svn < o.svnOf then 6 else 0

/-- Step 5: the header's signature. -/
def Image.check5 (i : Image) : Nat :=
  match decPoint (i.hdr 379 133) with
  | none => 4
  | some q => if ecdsaOk q (sha512 (i.hdr 0 247)) (i.hdr 247 132) then 0 else 4

/-- Step 6: the body's hash. -/
def Image.check6 (i : Image) : Nat := if sha512 i.bodyBytes = i.bodyHash then 0 else 3

/-- Every check in order (R288): 0, or the first that fails. -/
def Image.check (i : Image) (o : OtpRow) : Nat :=
  if i.check14 o != 0 then i.check14 o else if i.check5 != 0 then i.check5 else i.check6

/-- Slot A is preferred to slot B: higher SVN, then higher VERSION, then A. -/
def Image.before (a b : Image) : Bool := decide (b.svn < a.svn) || (a.svn == b.svn && decide (b.version ≤ a.version))

/-- The results of the two slots and the slot that boots (R288). The slot not reached reads NOT_READ (7). -/
def chooseSlot (o : OtpRow) (a b : Option Image) : Nat × Nat × Option (Nat × Image) :=
  let pre (x : Option Image) : Nat := match x with
    | none => 1
    | some i => i.check14 o
  let rest (i : Image) : Nat := if i.check5 != 0 then i.check5 else i.check6
  match a, b with
  | some x, some y =>
    if pre a = 0 ∧ pre b = 0 then
      if x.before y then
        if rest x = 0 then (0, 7, some (0, x)) else (rest x, rest y, if rest y = 0 then some (1, y) else none)
      else if rest y = 0 then (7, 0, some (1, y)) else (rest x, rest y, if rest x = 0 then some (0, x) else none)
    else if pre a = 0 then (rest x, pre b, if rest x = 0 then some (0, x) else none)
    else if pre b = 0 then (pre a, rest y, if rest y = 0 then some (1, y) else none)
    else (pre a, pre b, none)
  | some x, none => if pre a = 0 then (rest x, 1, if rest x = 0 then some (0, x) else none) else (pre a, 1, none)
  | none, some y => if pre b = 0 then (1, rest y, if rest y = 0 then some (1, y) else none) else (1, pre b, none)
  | none, none => (1, 1, none)

/-! ### Measurements (R294) -/

/-- A digest, byte k at bits [8k+7:8k]. -/
def digest (l : List Nat) : BitVec 512 := BitVec.ofNat 512 (fromLe (sha512 l))

/-- The digest of a measurement whose encoding no rule gives. -/
def measDigest (i : Nat) (l : List Nat) : BitVec 512 :=
  digest ((Config.measEncode i (l.map (BitVec.ofNat 8))).map (·.toNat))

/-- Measurement 6: `FERY.PAIR`, `BOUNDARY`, `PEER_HASH` and `SAIL.POLICY` of both halves. -/
def Dev.meas6 (d : Dev) : BitVec 512 :=
  measDigest 6 (d.halves.flatMap fun h =>
    ([0x044, 0x048] ++ (List.range 8).map fun n => 0x070 + 4 * n).flatMap (fun off => toLe 4 (d.reg h pgFERY off).toNat)
      ++ toLe 4 (d.reg h pgSAIL 0x044).toNat)

/-- Measurement 2: OTP bytes 32 to 223, the signer used and the lifecycle state. -/
def OtpRow.meas2 (o : OtpRow) (signer : Nat) : BitVec 512 := measDigest 2 (o.critical.drop 32 ++ [signer, o.life])

/-- Record measurements 1 to 6 in the halves whose firmware runs. -/
def Dev.measAll (d : Dev) (otp : Pair OtpRow) : Dev :=
  let img (h : Half) : BitVec 512 := match (d.half h).boot.image with
    | some i => digest (i.header.map (·.toNat) ++ i.bodyBytes)
    | none => 0
  d.eachHalf fun d h => d.upd h fun x => if !x.boot.running then x else
    { x with boot := { x.boot with meas := [Config.romDigest, (otp.get h).meas2 x.boot.signer, img .west, img .east,
        measDigest 5 (toLe 2 x.strap.pins.toNat ++ [bnum d.single]), d.meas6] } }

/-- Recompute measurement 6 after a commit; a change raises `MEAS_CHANGED` (R294). -/
def Dev.measNote (d : Dev) : Dev :=
  let m := d.meas6
  d.eachHalf fun d h =>
    if !(d.half h).boot.running || (d.half h).boot.meas.getD 5 0 == m then d
    else (d.upd h fun x => { x with boot := { x.boot with meas := x.boot.meas.set 5 m } }).raise h pgBOOT .measChanged

/-! ### Starting firmware (R289 to R291) -/

/-- The ROM holds the half (R291). -/
def Dev.romHalt (d : Dev) (h : Half) (cause : Nat) : Dev :=
  (d.upd h fun x => { x with boot := { x.boot with halt := cause } }).raise h pgBOOT .bootHalt cause

/-- Compare the certified leaf key with the identity key (R285). -/
def Dev.certCheck (d : Dev) (h : Half) : Dev :=
  let ok := match (d.half h).boot.keys with
    | none => false
    | some k => Config.certOk d.flash.cert0 && Config.certLeafKey d.flash.cert0 == ecPub k.identity
  let d := d.upd h fun x => { x with boot := { x.boot with certOk := ok } }
  if ok then d else d.raise h pgBOOT .certMismatch

/-- Firmware starts in a half (R289 step 8): the islands leave reset, the engine's cores have passed their checks, the
key-load key is shown and signed. -/
def Dev.fwStart (d : Dev) (h : Half) (otp : Pair OtpRow) (img : Image) (slot status us : Nat) (recovery : Bool) : Dev :=
  let o := otp.get h
  let k := o.keys
  let nonce := d.free 640
  let d := nonce.2.upd h fun x => { x with
    boot := { x.boot with running := true, halt := 0, recovery := recovery, image := some img, slot := slot,
                          signer := img.signer, svn := img.svn, version := img.version, keys := some k, life := o.life }
    pwr := { x.pwr with inReset := 0 }
    mgmt := { x.mgmt with lost := false } }
  let src := bitsOf (d.half h).strap.eff.toNat 1 0
  let d := d.setReg h pgBOOT 0x040 (status * 256 + bnum recovery * 16 + src * 4 + img.signer * 2 + slot)
  let d := ((d.setReg h pgBOOT 0x044 img.version).setReg h pgBOOT 0x048 img.svn).setReg h pgBOOT 0x04C (us % 2 ^ 32)
  let d := d.setReg h pgCIPH 0x07C 15
  let pub := encPoint (ecPub k.keyLoad)
  let d := d.setWords h pgKEYS 0x200 34 (fromLe pub)
  let d := d.setWords h pgKEYS 0x290 33 (fromLe (ecdsaSign k.identity (toScalar nonce.1.toNat) pub))
  let d := d.certCheck h
  let d := d.measAll otp
  if recovery then d.raise h pgBOOT .recoveryBoot else d

/-- Raise `BOOT_SLOT_FAIL` for each present slot whose checks failed. -/
def Dev.slotFails (d : Dev) (a b : Nat) : Dev :=
  let bad (n : Nat) : Bool := n != 0 && n != 1 && n != 7
  let d := if bad a then d.raise .west pgBOOT .bootSlotFail else d
  if bad b then d.raise .west pgBOOT .bootSlotFail else d

/-- The boot of West after its OTP checks. -/
def Dev.bootWest (d : Dev) (otp : Pair OtpRow) (us : Nat) : Dev :=
  let d := if d.single || d.fordUp .west then d else { d with split := true }
  if bitsOf d.west.strap.eff.toNat 1 0 = 3 then d.romHalt .west 4
  else
    let r := chooseSlot otp.west d.flash.slotA d.flash.slotB
    let d := d.slotFails r.1 r.2.1
    match r.2.2 with
    | none => (d.setReg .west pgBOOT 0x040 (r.2.1 * 4096 + r.1 * 256)).romHalt .west 4
    | some (slot, img) => d.fwStart .west otp img slot (r.2.1 * 16 + r.1) us false

/-- The boot of East: the image that West runs, checked again (R288, R290). Nothing happens before West has booted. -/
def Dev.bootEast (d : Dev) (otp : Pair OtpRow) (us : Nat) : Dev :=
  let w := d.west.boot
  match w.image with
  | some img =>
    let c := img.check otp.east
    if c = 0 then d.fwStart .east otp img w.slot (if w.slot = 0 then 7 * 16 else 7) us w.recovery
    else
      let d := d.raise .east pgBOOT .bootSlotFail
      let d := d.setReg .east pgBOOT 0x040 (if w.slot = 0 then 7 * 4096 + c * 256 else c * 4096 + 7 * 256)
      (d.romHalt .east 5).upd .east fun x => { x with mgmt := { x.mgmt with lost := true } }
  | none => if w.halt != 0 then d.romHalt .east 4 else d

/-- The ROM may start: G3 good, RESET_N high, no firmware, and no hold but East's wait for a Ford that is now up. -/
def Dev.romMay (d : Dev) (h : Half) : Bool :=
  let b := (d.half h).boot
  d.halves.contains h && d.supv.resetN && d.supv.good.getLsbD 3 && !b.running && !(d.half h).mgmt.lost && (b.halt == 0 || (b.halt == 6 && d.fordUp h))

/-- The ROM's exchange of critical fields over the Ford (R290). -/
def otpExchange (otp : Pair OtpRow) : Pair OtpRow :=
  { west := otp.west.program (otp.west.mergeBits otp.east), east := otp.east.program (otp.east.mergeBits otp.west) }

/-- `ROM_BOOT` of a half: `us` microseconds since RESET_N rose. -/
def execRomBoot (h : Half) (us : Nat) (s : State) : Out :=
  let d := s.dev
  if !(d.romMay h) then .next s
  else
    let both := !d.single && d.fordUp h
    let d := d.upd h fun x => { x with pwr := { x.pwr with inReset := 0x17FFFF }, boot := { x.boot with halt := 0, life := (s.otp.get h).life } }
    if !(s.otp.get h).crcOk then .next { s with dev := d.romHalt h 1 }
    else if both && !(s.otp.west.sameOnce s.otp.east) then
      .next { s with dev := d.eachHalf fun d k => (d.romHalt k 2).raise k pgOTPC .otpMismatch }
    else
      let otp := if both then otpExchange s.otp else s.otp
      let d := d.eachHalf fun d k => if otp.get k = s.otp.get k then d else d.raise k pgOTPC .otpProgrammed
      let s := { s with otp := otp }
      let l := (otp.get h).life
      if l = 0 ∨ l = 4 then .next { s with dev := d.romHalt h 3 }
      else match h with
        | .west => .next { s with dev := d.bootWest otp us }
        | .east => .next { s with dev := if d.fordUp .east then d.bootEast otp us else d.romHalt .east 6 }

/-- `RECOVERY_BOOT` (R290): an image from the BMC that passes R288 runs from SRAM in the halves that wait for one. -/
def execRecoveryBoot (img : Image) (us : Nat) (s : State) : Out :=
  onDev (fun d =>
    if d.west.boot.halt != 4 || img.check s.otp.west != 0 then d
    else
      let st := bitsOf (d.reg .west pgBOOT 0x040).toNat 15 8
      let d := d.fwStart .west s.otp img d.west.boot.slot st us true
      if d.east.boot.halt = 4 ∧ d.fordUp .west ∧ !d.single then
        if img.check s.otp.east = 0 then d.fwStart .east s.otp img d.east.boot.slot 0 us true
        else (d.raise .east pgBOOT .bootSlotFail).romHalt .east 5
      else d) s

/-! ### Firmware update (R292) -/

/-- `TRANSFER_FW`: the FM API writes the slot that did not boot, after steps 1 to 5 of R288; a bad body leaves it invalid. -/
def execTransferFw (img : Image) (s : State) : Out :=
  onDev (fun d =>
    let w := d.west.boot
    let toB := w.slot == 0 && !w.recovery
    if !w.running || bitsOf d.west.strap.eff.toNat 1 0 == 3 then d
    else if (if img.check14 s.otp.west != 0 then img.check14 s.otp.west else img.check5) != 0 then d.emit (.fmResponse 0x0201 0xA [])
    else
      let ok := img.check6 == 0
      let x := if ok then some img else some { img with header := [] }
      let d := { d with flash := if toB then { d.flash with slotB := x } else { d.flash with slotA := x } }
      d.emit (.fmResponse 0x0201 (if ok then mbOk else 0xA) [])) s

/-- `ACTIVATE_FW`: takes effect at the next cold start; online activation is unsupported. -/
def execActivateFw (online : Bool) (s : State) : Out :=
  onDev (fun d => if !d.west.boot.running then d
    else d.emit (.fmResponse 0x0202 (if online then mbUnsupported else mbOk) [])) s

/-! ### The OTP commands (R293, R297) -/

/-- The header in `TOKEN` as an image without a body. -/
def Dev.token (d : Dev) (h : Half) : Image :=
  { header := ((List.range 128).flatMap fun n => toLe 4 (d.reg h pgOTPC (0x080 + 4 * n)).toNat).map (BitVec.ofNat 8), body := [] }

/-- The token permits RMA. -/
def Dev.tokenOk (d : Dev) (o : OtpRow) (h : Half) : Bool :=
  let t := d.token h
  let c := t.check14 o
  (c == 0 || c == 6) && t.bodyLen == 0 && t.check5 == 0 && t.bodyHash == sha512 (ascii "RMA" ++ toLe 8 o.serial.toNat)

/-- Why an OTP command is refused: 0, 3 REFUSED or 4 SPLIT. -/
def Dev.otpcJudge (d : Dev) (o : OtpRow) (h : Half) (op arg : Nat) : Nat :=
  let other := if arg = 0 then o.signer1 != 0 && !(o.revoke.vote.getLsbD 1) else o.signer0 != 0 && !(o.revoke.vote.getLsbD 0)
  let f := strapField arg
  let val := bitsOf o.strapVal.vote.toNat (f.1 + f.2 - 1) f.1
  let now := bitsOf (d.half h).strap.eff.toNat (f.1 + f.2 - 1) f.1
  if d.split then 4
  else if !(match op with
    | 1 => decide (arg ≤ (d.half h).boot.svn) && decide (arg ≤ 64) && decide (o.svnOf < arg)
    | 2 => decide (arg < 2) && (d.half h).boot.signer != arg && other
    | 3 => decide (arg ≤ 4) && decide (o.life < arg) && (arg != 3 || d.tokenOk o h)
    | 4 => decide (arg < 7) && !(o.strapLock.vote.getLsbD arg) && (val &&& now) == val
    | _ => false) then 3
  else 0

/-- Show the state of an OTP command in both halves' pages (R297). -/
def Dev.otpcStatus (d : Dev) (st : Nat) : Dev := d.eachHalf fun d h => d.setReg h pgOTPC 0x05C (st * 2 ^ 28)

/-- A write of `OTPC.CMD`: none where it is refused, else the command in hand. -/
def Dev.otpcCmd (otp : Pair OtpRow) (h : Half) (v : Nat) (d : Dev) : Option Dev :=
  let op := v % 16
  let arg := bitsOf v 15 8
  if d.otpcJudge (otp.get h) h op arg != 0 then none else some { d.otpcStatus 1 with otpc := some (h, op, arg) }

/-- Show why it was refused. -/
def Dev.otpcNo (otp : Pair OtpRow) (h : Half) (v : Nat) (d : Dev) : Dev :=
  d.otpcStatus (max 3 (d.otpcJudge (otp.get h) h (v % 16) (bitsOf v 15 8)))

/-- The bits that a command programs in a row, in order (R282, R297). -/
def Dev.otpcBits (d : Dev) (h : Half) (op arg : Nat) : List (OtpFld × Nat) :=
  let f := strapField arg
  let now := bitsOf (d.half h).strap.eff.toNat (f.1 + f.2 - 1) f.1
  match op with
  | 1 => (List.range arg).map fun i => (.svn, i)
  | 2 => [(.revoke, arg)]
  | 3 => (setBits 16 (lifePattern arg)).map fun i => (.life, i)
  | 4 => ((setBits 14 now).map fun i => (.strapVal, f.1 + i)) ++ [(.strapLock, arg)]
  | _ => []

/-- Pulses of a row: every bit in copy 1, 2 and 3. -/
def otpPulses (h : Half) (bits : List (OtpFld × Nat)) : List (Half × OtpFld × Nat × Nat) :=
  bits.flatMap fun b => [0, 1, 2].map fun c => (h, b.1, b.2, c)

/-- One pulse. -/
def otpPulse (otp : Pair OtpRow) (p : Half × OtpFld × Nat × Nat) : Pair OtpRow :=
  otp.set p.1 ((otp.get p.1).burn p.2.1 p.2.2.1 p.2.2.2)

/-- Run the OTP command in hand, West's row first; `fail` names the pulse that does not take. -/
def otpRun (fail : Option Nat) (s : State) : State :=
  match s.dev.otpc with
  | none => s
  | some (h, op, arg) =>
    let all := s.dev.halves.flatMap fun k => otpPulses k (s.dev.otpcBits h op arg)
    let bad := match fail with
      | some k => decide (k < all.length)
      | none => false
    let go := if bad then all.take (fail.getD 0) else all
    let d := { s.dev with otpc := none }
    let d := d.otpcStatus (if bad then 5 else 2)
    { s with otp := go.foldl otpPulse s.otp, dev := d.raise h pgOTPC .otpcCmdDone }

/-- A meaning that may run an OTP command. -/
def onOtp (fail : Option Nat) (f : Dev → Dev) (s : State) : Out := .next (otpRun fail { s with dev := f s.dev })

/-- An OTP command written by an origin. -/
def otpcWrite (org : Origin) (h : Half) (op arg : Nat) (fail : Option Nat) (s : State) : Out :=
  let v := arg % 256 * 256 + op
  onOtp fail (fun d => d.command org h pgOTPC 0x058 v (Dev.otpcCmd s.otp h v) false true (Dev.otpcNo s.otp h v)) s

/-- `SVN_ADVANCE`, `REVOKE_SIGNER`, `LC_ADVANCE` and `LOCK_STRAP` (R293, R297). -/
def execSvnAdvance (org : Origin) (h : Half) (arg : Nat) (fail : Option Nat) (s : State) : Out := otpcWrite org h 1 arg fail s
def execRevokeSigner (org : Origin) (h : Half) (arg : Nat) (fail : Option Nat) (s : State) : Out := otpcWrite org h 2 arg fail s
def execLcAdvance (org : Origin) (h : Half) (arg : Nat) (fail : Option Nat) (s : State) : Out := otpcWrite org h 3 arg fail s
def execLockStrap (org : Origin) (h : Half) (arg : Nat) (fail : Option Nat) (s : State) : Out := otpcWrite org h 4 arg fail s

/-- Copy a measurement into `MEAS_DATA`. -/
def Dev.measSel (h : Half) (v : Nat) (d : Dev) : Option Dev :=
  let i := v % 8
  if i = 0 ∨ 6 < i then none
  else some (d.setWords h pgBOOT 0x060 16 (((d.half h).boot.meas.getD (i - 1) 0).toNat))

/-- `BOOT_MEAS_SEL` (R298), a selector that is not journaled (R354). -/
def execBootMeasSel (org : Origin) (h : Half) (i : Nat) (s : State) : Out :=
  onDev (fun d => d.command org h pgBOOT 0x050 (i % 8) (Dev.measSel h i) false false) s

end Sys2Proof.Machine
end

