-- ==== Sys2Proof/Machine/Keys.lean ====
section
/-! DEFINITION. Chapter 10, key slots: `KEYS.CMD` (R257 to R260, R271, R274, R276, R278 to R280), the agreement over the
Ford, deferral (R273), the erase walk (R275) and the sweep (R271, R272). -/

namespace Sys2Proof.Machine

/-! ### Agreement over the Ford (R260, R361) -/

/-- The first sailing that opens at least 6 µs from now, as a half's own boundaries fall (R361). -/
def Dev.castTarget (d : Dev) (h : Half) : Nat :=
  let x := (d.half h).sail
  let n := max 1 (d.lengthNs h)
  x.current + 1 + (d.time + 6000 - (x.openedAt + x.length) + n - 1) / n

/-- Change the running key command. -/
def Dev.updKeyCmd (d : Dev) (f : KeyCmd → KeyCmd) : Dev := { d with keys := { d.keys with cmd := d.keys.cmd.map f } }

/-- The command ends with a status (R280). -/
def Dev.keysEnd (d : Dev) (st : Nat) : Dev :=
  match d.keys.cmd with
  | none => d
  | some c => ({ d with keys := { d.keys with cmd := none, status := st } }).raise c.half pgKEYS .keysCmdDone c.slot

/-- Halves that an erase runs in: the commanding one alone while Split (R278). -/
def Dev.keyHalves (d : Dev) (c : KeyCmd) : List Half := if d.split then [c.half] else d.halves

/-- The command is agreed: an erase or a retire begins (R274); while Split the other half zeroises later (R278). -/
def Dev.keysAgreed (d : Dev) (c : KeyCmd) : Dev :=
  if c.op = 5 ∨ c.op = 6 then
    let d := if d.split && !d.single then
        d.upd c.half.other fun x => { x with ciph := { x.ciph with zeroPending := x.ciph.zeroPending ++ [c.slot] } }
      else d
    d.eraseBegin c.slot (d.keyHalves c)
  else d

/-- Start the exchange of the running command. With one half, or while Split, there is none. -/
def Dev.keysExchange (d : Dev) : Dev :=
  match d.keys.cmd with
  | none => d
  | some c =>
    let t := d.castTarget c.half
    if d.single || d.split then
      (d.updKeyCmd fun c => { c with voted := true, otherKnows := true, target := t }).keysAgreed c
    else
      let id := 65536 + d.keys.count
      let d := { d with keys := { d.keys with count := d.keys.count + 1 } }
      (d.updKeyCmd fun c => { c with id := id, target := t }).fordSend c.half (.castPrepare id t)

/-- `CAST_PREPARE` of a key command at the other half: it votes, against a change while its Last Ferry runs (R279). -/
def Dev.keysPrepare (d : Dev) (h : Half) (id : Nat) : Dev :=
  d.fordSend h (.castVote id ((d.half h).pwr.state == .on || (d.half h).pwr.state == .trim))

/-- `CAST_VOTE` of a key command at the commanding half. -/
def Dev.keysVote (d : Dev) (h : Half) (id : Nat) (ok : Bool) : Dev :=
  match d.keys.cmd with
  | none => d
  | some c =>
    if c.id != id || c.voted then d
    else if !ok then d.keysEnd 10
    else ((d.updKeyCmd fun c => { c with voted := true }).fordSend h (.castApply id true)).keysAgreed c

/-- `CAST_APPLY` of a key command at the other half. -/
def Dev.keysDecided (d : Dev) (id : Nat) : Dev := d.updKeyCmd fun c => if c.id = id then { c with otherKnows := true } else c

/-- Both halves have taken the change. -/
def Dev.keysAllApplied (d : Dev) (c : KeyCmd) : Bool := c.appliedW && (c.appliedE || d.single)

/-- The change of a load or a sweep takes effect in a half whose target boundary has opened (R260, R271). -/
def Dev.keysApply (d : Dev) (h : Half) : Dev :=
  match d.keys.cmd with
  | none => d
  | some c =>
    let mine := match h with
      | .west => c.appliedW
      | .east => c.appliedE
    if !c.voted || mine || c.op = 5 || c.op = 6 || !(h == c.half || c.otherKnows) || (d.half h).sail.current < c.target then d
    else
      let d := if c.op = 4 then
          d.updSlot h c.slot fun k => { k with cur := !k.cur, state := .sweeping }
        else d.loadHalf h c.slot c.phase (c.keys.getD 0 0) (c.keys.getD 1 0) (c.keys.getD 2 0)
      let d := d.updKeyCmd fun c => match h with
        | .west => { c with appliedW := true }
        | .east => { c with appliedE := true }
      match d.keys.cmd with
      | some c =>
        if d.keysAllApplied c then
          let d := if c.op = 4 then { d with keys := { d.keys with sweep := some { slot := c.slot, flipped := true } } } else d
          d.keysEnd 2
        else d
      | none => d

/-- The Ford is lost: a command without its vote ends SPLIT; a decided one stays until the rejoin (R278, R363). -/
def Dev.keysSplit (d : Dev) : Dev :=
  match d.keys.cmd with
  | some c => if c.voted || c.op = 5 || c.op = 6 then d else (d.slotBoth c.slot fun k => { k with pending := false }).keysEnd 8
  | none => d

/-- The Ford returns: slots erased meanwhile are zeroised first, and a decision held for the other half applies (R278). -/
def Dev.keysRejoin (d : Dev) : Dev :=
  let d := d.eachHalf fun d h =>
    let ns := (d.half h).ciph.zeroPending
    let d := ns.foldl (fun d n =>
      let o := d.kslot h.other n
      let d := (d.eraseBegin n [h]).eraseRecord n [h]
      d.updSlot h n fun k => { k.zero with
        state := if o.state == .retired then .retired else if o.state == .erasing then .erasing else .empty
        gen := o.gen, walking := o.state != .retired && o.state != .erasing, owner := o.owner }) d
    d.upd h fun x => { x with ciph := { x.ciph with zeroPending := [] } }
  let d := d.updKeyCmd fun c => { c with otherKnows := c.voted }
  d.eachHalf fun d h => d.keysApply h

/-! ### The commands (R280) -/

/-- Bytes of `KEYS.BLOB`. -/
def Dev.blob (d : Dev) (h : Half) (n : Nat) : List Nat :=
  ((List.range 36).flatMap fun i => toLe 4 (d.reg h pgKEYS (0x100 + 4 * i)).toNat).take n

/-- The transport key of an origin, from the point in BLOB (R257). -/
def Dev.transportOf (d : Dev) (org : Origin) (h : Half) : Option (BitVec 256) :=
  match (d.half h).boot.keys, decPoint (d.blob h 133) with
  | some k, some q =>
    let c := d.orgCode org
    (ecdh k.keyLoad q).map fun z => BitVec.ofNat 256 (fromLe (hkdf (List.replicate 64 0) z [0x54, 0x4B, c.1, c.2] 32))
  | _, _ => none

/-- The keys that BLOB holds wrapped for a slot and phase (R258); none where the unwrap fails. -/
def Dev.unwrapBlob (d : Dev) (org : Origin) (h : Half) (n : Nat) (ph : Bool) : Option (List (BitVec 256)) :=
  match d.keys.transports.find? fun t => t.org == org with
  | none => none
  | some t =>
    let u := kwUnwrap t.key.toNat ((pieces 8 13 (d.blob h 104)).map fromBe)
    if u.1 = wrapIv (d.kslot h n).gen n ph then
      let ws := u.2.map (BitVec.ofNat 64)
      some ((List.range 3).map fun i => keyOfWords ((ws.drop (4 * i)).take 4))
    else none

/-- The owner LD of a slot has capacity in a half. -/
def Dev.ownerIn (d : Dev) (n : Nat) (k : Half) : Bool :=
  match (d.kslot k.other n).owner with
  | none => true
  | some o => match d.findLd o with
    | some (h, c) => (d.extents h c).any fun e => homeOfUnit e.dpa == k
    | none => false

/-- Why a key command is refused: its status code, or 0 (R257 to R259, R271, R275, R276, R278, R279). -/
def Dev.keysJudge (d : Dev) (org : Origin) (h : Half) (v : Nat) : Nat :=
  let op := v % 16
  let n := bitsOf v 13 4
  let ph := v.testBit 14
  let k := d.kslot h n
  let p := (d.half h).pwr.state
  let load := op == 2 || op == 3
  let erase := op == 5 || op == 6
  if op = 0 || 7 < op then 10
  else if d.keys.cmd.any fun c => !(erase && c.slot == n) then 10
  else if op = 7 then 0
  else if !(p == .on || p == .trim) then 10
  else if op = 1 then (if (d.half h).boot.keys.isNone then 10 else if (d.transportOf org h).isNone then 3 else 0)
  else if k.state = .retired then 7
  else if d.split && (!erase || d.ownerIn n h.other) then 8
  else if load && !(d.ownsSlot n) then 6
  else if load && d.halves.any fun x => (d.kslot x n).walking then 12
  else if load && !(k.state == .empty || k.state == .active) then 10
  else if load && lsum (d.halves.map fun x => d.users x n ph) != 0 then 5
  else if op = 2 then
    if !(d.keys.transports.any fun t => t.org == org) then 9
    else match d.unwrapBlob org h n ph with
      | none => 4
      | some ks => if ks.getD 0 0 = ks.getD 1 0 then 11 else 0
  else if op = 4 then
    if d.keys.sweep.isSome then 10 else if !(k.loadedA && k.loadedB) then 13 else if k.state != .active then 10 else 0
  else 0

/-- Requests that name a slot and phase stand queued, suspended or running (R273). -/
def Dev.namedAny (d : Dev) (n : Nat) (ph : Bool) : Bool :=
  d.halves.any fun h => (d.half h).ciph.queue.any fun q => q.slotOf == some (n, ph)

/-- Start a load or a sweep: deferred while requests name its slot and phase. -/
def Dev.keysBegin (d : Dev) (c : KeyCmd) : Dev :=
  let d := { d with keys := { d.keys with status := 1 } }
  if c.op != 4 && c.op != 5 && c.op != 6 && d.namedAny c.slot c.phase then
    let c := { c with deferred := true, beforeW := d.west.ciph.nextId, beforeE := d.east.ciph.nextId }
    { (d.slotBoth c.slot fun k => { k with pending := true }) with keys := { d.keys with cmd := some c } }
  else ({ d with keys := { d.keys with cmd := some c } }).keysExchange

/-- An erase ends a load of the same slot, whose journal entry shows ABORTED (R279). -/
def Dev.keysCut (d : Dev) : Dev :=
  match d.keys.cmd with
  | some c =>
    let v := c.op + c.slot * 16 + bnum c.phase * 2 ^ 14
    let d := if c.op = 5 ∨ c.op = 6 then d else d.journal c.org c.half pgKEYS 0x040 rABORTED 0 (BitVec.ofNat 32 v)
    { d with keys := { d.keys with cmd := none } }
  | none => d

/-- A write of `KEYS.CMD`: none where it is refused. -/
def Dev.keysCmd (org : Origin) (h : Half) (v : Nat) (d : Dev) : Option Dev :=
  let op := v % 16
  let n := bitsOf v 13 4
  let ph := v.testBit 14
  let c : KeyCmd := { org := org, half := h, op := op, slot := n, phase := ph }
  let done (d : Dev) : Option Dev := some (({ d with keys := { d.keys with status := 2 } }).raise h pgKEYS .keysCmdDone n)
  if d.keysJudge org h v != 0 then none
  else match op with
    | 1 => match d.transportOf org h with
      | some key => done { d with keys := { d.keys with
          transports := { org := org, key := key } :: d.keys.transports.filter fun t => !(t.org == org) } }
      | none => none
    | 2 => (d.unwrapBlob org h n ph).map fun ks => d.keysBegin { c with keys := ks }
    | 3 =>
      let k1 := d.freshKey
      let k2 := k1.2.freshKey
      let mac := k2.2.freshKey
      if k1.1 = k2.1 then some (({ mac.2 with keys := { mac.2.keys with status := 11 } }).raise h pgKEYS .keysCmdDone n)
      else some (mac.2.keysBegin { c with keys := [k1.1, k2.1, mac.1] })
    | 4 => some (d.keysBegin c)
    | 5 | 6 => some (d.keysCut.keysBegin c)
    | _ => done { d with keys := { d.keys with selected := n } }

/-- Show why a command was refused; a running command is unaffected. -/
def Dev.keysNo (org : Origin) (h : Half) (v : Nat) (d : Dev) : Dev :=
  if d.keys.cmd.isSome || v % 16 = 0 || 7 < v % 16 then d
  else { d with keys := { d.keys with status := d.keysJudge org h v } }

/-- A key command written by an origin. -/
def keysWrite (org : Origin) (h : Half) (op slot : Nat) (ph : Bool) (s : State) : Out :=
  let v := op + slot % 1024 * 16 + bnum ph * 2 ^ 14
  onDev (fun d => d.command org h pgKEYS 0x040 v (Dev.keysCmd org h v) false (op != 7) (Dev.keysNo org h v)) s

/-- `ESTABLISH`, `LOAD`, `GENERATE`, `SWEEP`, `ERASE`, `RETIRE` and `SELECT` (R257, R259, R271, R274, R276, R280). -/
def execEstablish (org : Origin) (h : Half) (s : State) : Out := keysWrite org h 1 0 false s
def execKeyLoad (org : Origin) (h : Half) (slot : Nat) (phase : Bool) (s : State) : Out := keysWrite org h 2 slot phase s
def execKeyGenerate (org : Origin) (h : Half) (slot : Nat) (phase : Bool) (s : State) : Out := keysWrite org h 3 slot phase s
def execKeySweep (org : Origin) (h : Half) (slot : Nat) (s : State) : Out := keysWrite org h 4 slot false s
def execKeyErase (org : Origin) (h : Half) (slot : Nat) (s : State) : Out := keysWrite org h 5 slot false s
def execKeyRetire (org : Origin) (h : Half) (slot : Nat) (s : State) : Out := keysWrite org h 6 slot false s
def execKeySelect (org : Origin) (h : Half) (slot : Nat) (s : State) : Out := keysWrite org h 7 slot false s

/-- `LOAD_DEFERRED_APPLY` (R273): the last earlier request on the slot and phase has finished, and the load goes on. -/
def execLoadDeferredApply (s : State) : Out :=
  onDev (fun d => match d.keys.cmd with
    | none => d
    | some c =>
      let left := d.halves.any fun h => (d.half h).ciph.queue.any fun q => q.slotOf == some (c.slot, c.phase)
        && decide (q.id < match h with
          | .west => c.beforeW
          | .east => c.beforeE)
      if !c.deferred || left then d
      else (d.updKeyCmd fun c => { c with deferred := false }).keysExchange) s

/-- `KEY_ERASE_RECORD_DONE` (R274): the record overwrite of an erase ends, once the requests that ran have finished. -/
def execKeyEraseRecordDone (slot : Nat) (s : State) : Out :=
  onDev (fun d =>
    let n := slot % 1024
    let hs := d.halves.filter fun h => (d.kslot h n).state == .erasing
    let busy := hs.any fun h => (d.half h).ciph.queue.any fun q => (q.slotOf.map (·.1)) == some n
    if hs.isEmpty || busy then d
    else
      let mine := d.keys.cmd.any fun c => (c.op == 5 || c.op == 6) && c.slot == n
      let retire := d.keys.cmd.any fun c => c.op == 6 && c.slot == n
      let d := (d.eraseRecord n hs).eraseFinish n hs retire
      if mine then d.keysEnd 2 else d) s

/-- `WALK_DONE` (R275): a half's walk of a slot makes its tiles LOST and ends; a tile in a transition, or DARK, keeps it
running. -/
def execWalkDone (h : Half) (slot : Nat) (s : State) : Out :=
  onDevS (fun d =>
    let n := slot % 1024
    if !(d.kslot h n).walking then d
    else
      let d := d.eraseWalk h n
      if d.walkLeft h n then d
      else (d.updSlot h n fun k => { k with walking := false }).raise h pgKEYS .walkDone n) s

/-! ### The sweep (R271, R272) -/

/-- The sweep's cursor in a half. -/
def Sweep.cursor (w : Sweep) : Half → Nat
  | .west => w.cursorW
  | .east => w.cursorE

/-- Move the cursor. -/
def Sweep.move (w : Sweep) (h : Half) (t : Nat) (done : Bool) : Sweep :=
  match h with
  | .west => { w with cursorW := t, doneW := done }
  | .east => { w with cursorE := t, doneE := done }

/-- A tile of the swept slot under the old phase. -/
def Dev.oldPhase (d : Dev) (h : Half) (n t : Nat) : Bool :=
  let e := d.tile h t
  e.slot.toNat == n && e.state != .blank && e.phase != (d.kslot h n).cur

/-- A tile that the walk can treat now: not in a transition, nor with a line under repair, nor new dirty while those writes
are held. -/
def Dev.sweepable (d : Dev) (h : Half) (t : Nat) : Bool :=
  let e := d.tile h t
  !(d.inTransition h t) && e.state != .dark && !((d.half h).ecc.repairs.any fun r => lineTile r.line == t)
    && !(e.state == .dramClean && d.newDirtyHeld h)

/-- Rewrite a resident tile's lines under the new phase with the current sailing's stamp, and mirror each (R272). Lines of
the formatter are under no key. An uncorrectable line starts its repair, and the tile is left for later. -/
def Dev.sweepTile (d : Dev) (h : Half) (t : Nat) : Dev :=
  let e := d.tile h t
  let f := e.frame.toNat
  let cur := (d.kslot h e.slot.toNat).cur
  let s := (d.half h).sail.current
  let d := d.landCleanTile h t
  let d := d.landDropTile h t
  let js := ((d.half h).tier.dram.filter fun x => x.1 / 1024 == f).map fun x => x.1 % 1024
  let r := js.foldl (fun (a : List (Nat × Tags × LineData) × Bool × Dev) j =>
    let line := lineOf h t j
    let p := a.2.2.frameRead h f j line {}
    match p.1.verdict with
    | .bad _ => (a.1, true, if (p.2.repairOf h line).isSome then p.2 else p.2.repairStart h line f p.1 [])
    | _ => if p.1.tags = {} then (a.1, a.2.1, p.2)
      else ((j, p.1.tags, (p.2.plain h line p.1).getD 0) :: a.1, a.2.1, p.2)) ([], false, d)
  if r.2.1 then r.2.2
  else
    let d := r.1.reverse.foldl (fun d x =>
      let line := lineOf h t x.1
      let g := mkTags (BitVec.ofNat 18 s) 0 e.slot cur x.2.1.poison x.2.1.w false x.2.1.ld
      let c := (d.lineCrypt h true line g x.2.2).getD 0
      (d.putFrameLine h f x.1 (encodeLine line c g)).mirror h
        (.mirror (BitVec.ofNat 18 s) x.2.1.ld e.slot cur [{ line := line, w := x.2.1.w, poison := x.2.1.poison, data := c }]) 1) r.2.2
    d.setTile h t { e with phase := cur, lastSailing := BitVec.ofNat 28 s, state := .dramDirty }

/-- `SWEEP_WALK_TILE` (R272): the walk of a half treats the next tile of the slot that is under the old phase, and ends where
none is left past its cursor; a tile passed over in a transition is visited again. -/
def execSweepWalkTile (h : Half) (s : State) : Out :=
  onDevS (fun d => match d.keys.sweep with
    | none => d
    | some w =>
      let ts := (d.tilesOfSlot h w.slot).filter fun t => d.oldPhase h w.slot t
      let go := ts.filter fun t => d.sweepable h t
      let set (d : Dev) (t : Nat) (done : Bool) : Dev := { d with keys := { d.keys with sweep := some (w.move h t done) } }
      match (go.find? fun t => decide (w.cursor h ≤ t)).orElse fun _ => go.head? with
      | none => set d (w.cursor h) (ts.isEmpty)
      | some t =>
        let e := d.tile h t
        let d := set d (max (w.cursor h) (t + 1)) false
        match e.state with
        | .lost => d.setTile h t { e with phase := (d.kslot h w.slot).cur }
        | .nandOnly =>
          ((d.promote h t).setTile h t { (d.promote h t).tile h t with stream := true }).upd h fun x => { x with
            tier := { x.tier with streamList := if x.tier.streamList.contains t then x.tier.streamList else x.tier.streamList ++ [t] } }
        | .dramClean | .dramDirty => d.sweepTile h t
        | _ => d) s

/-- `SWEEP_DONE` (R271): both walks have ended and no tile uses the old phase; while Split it waits for the Ford (R278). -/
def execSweepDone (s : State) : Out :=
  onDev (fun d => match d.keys.sweep with
    | none => d
    | some w =>
      let left := d.halves.any fun h => (d.tilesOfSlot h w.slot).any fun t => d.oldPhase h w.slot t
      if d.split || left || !w.doneW || !(w.doneE || d.single) then d
      else
        let d := { d with keys := { d.keys with sweep := none } }
        (d.slotBoth w.slot fun k => { k with state := .active }).keysRaise .sweepDone w.slot) s

end Sys2Proof.Machine
end

