-- ==== Sys2Proof/Machine/SailCmd.lean ====
section
/-! DEFINITION. Chapter 02: the beacon (R38), reservations (R408) and `SEAL_READY` (R40). -/

namespace Sys2Proof.Machine

/-- The half opens sailings: it has started, no Last Ferry runs and the Ford does not retrain (R20, R36, R305). -/
def Dev.sails (d : Dev) (h : Half) : Bool :=
  let x := d.half h
  x.pwr.started && (x.pwr.state == .on || x.pwr.state == .trim) && decide (0 < x.sail.current)
    && (d.apart || (d.fordUp h && (d.half h.other).pwr.state != .lastFerry))

/-- The master opens its next sailing (R38). -/
def Dev.openNext (d : Dev) (h : Half) : Dev := d.masterOpen h ((d.half h).sail.current + 1)

/-- The beacon master's timer has reached the sailing length (R38). The clock stands no earlier than that. -/
def Dev.lengthElapsed (d : Dev) (h : Half) : Dev :=
  if d.isMaster h && d.sails h then
    let at' := (d.half h).sail.openedAt + (d.half h).sail.length
    let d := { d with uptime := d.uptime + (at' - d.time), time := max d.time at' }
    d.openNext h
  else d

/-- `SAILING_LENGTH_ELAPSED` (R38). -/
def execSailingLengthElapsed (h : Half) (s : State) : Out := onDevS (fun d => d.lengthElapsed h) s

/-- `BEACON_OPEN` (R24): the follower opens the sailing and echoes it. -/
def execBeaconOpen (h : Half) (s : State) : Out :=
  onDevS (fun d => match d.fordTake h 0 FordMsg.isBeaconOpen with
    | some (.beaconOpen n, d) => ((d.boundary h n).openBoth h n).fordSend h (.beaconEcho n)
    | _ => d) s

/-- The master judges lateness: more than 40 ns after it opened the sailing (R38). -/
def Dev.echoLate (d : Dev) (h : Half) (n : Nat) : Bool :=
  let x := (d.half h).sail
  decide (n < x.current) || decide (x.openedAt + 40 < d.time)

/-- `BEACON_ECHO` (R38): the master learns that both halves have opened the sailing. -/
def execBeaconEcho (h : Half) (s : State) : Out :=
  onDevS (fun d => match d.fordTake h 0 FordMsg.isBeaconEcho with
    | some (.beaconEcho n, d) =>
      let late := d.echoLate h n
      let d := d.openBoth h n
      if late then (d.sat h pgSAIL 0x07C).raise h pgSAIL .skewLate else d
    | _ => d) s

/-- `RESERVATION_RECORD_DONE` (R408): the reservation whose record is now durable takes effect. -/
def execReservationRecordDone (h : Half) (s : State) : Out :=
  onDev (fun d => d.upd h fun x => match x.sail.reservePending with
    | some r => { x with sail := { x.sail with reservation := r, reservePending := none } }
    | none => x) s

/-- `SEAL_READY` (R40). -/
def execSealReady (h : Half) (s : State) : Out :=
  onDevS (fun d => match d.fordTake h 0 FordMsg.isSealReady with
    | some (.sealReady n, d) =>
      (d.upd h fun x => { x with sail := { x.sail with
        ledger := x.sail.ledger.map fun e => if e.s = n then { e with otherReady := true } else e } }).seal
    | _ => d) s

end Sys2Proof.Machine
end

