-- ==== Sys2Proof/Machine/FordLink.lean ====
section
/-! DEFINITION. The Ford as a link (chapter 01): replay (R22), lane repair and retraining (R19), modules (R25), and what
happens when it is lost (R332, R333).
Log entries of notes/assumptions that bear on this file: DEDUCED 31, DEDUCED 51. -/

namespace Sys2Proof.Machine

/-- Change the Ford's state in both halves. -/
def Dev.fordBoth (d : Dev) (f : FordHalf → FordHalf) : Dev := d.eachHalf fun d h => d.upd h fun x => { x with ford := f x.ford }

/-- Raise a `FORD` event in both halves. -/
def Dev.fordRaise (d : Dev) (e : Ev) : Dev := d.eachHalf fun d h => d.raise h pgFORD e

/-- MODULE_EN of a module: bit 2 enables module 0 and bit 1 module 1 (R25). -/
def Dev.moduleEn (d : Dev) (m : Nat) : Bool :=
  if m = 0 then d.fld .west pgFORD 0x040 2 2 == 1 else d.fld .west pgFORD 0x040 1 1 == 1

/-- A module's MODULE_UP. -/
def FordHalf.upOf (f : FordHalf) (m : Nat) : Bool := if m = 0 then f.up0 else f.up1

/-- Set a module up or down. -/
def FordHalf.setUp (f : FordHalf) (m : Nat) (b : Bool) : FordHalf := if m = 0 then { f with up0 := b } else { f with up1 := b }

/-- Lanes repaired on a module since its last training. -/
def FordHalf.repairOf (f : FordHalf) (m : Nat) : Nat := if m = 0 then f.repair0 else f.repair1

/-- Set a module's repair count. -/
def FordHalf.setRepair (f : FordHalf) (m n : Nat) : FordHalf := if m = 0 then { f with repair0 := n } else { f with repair1 := n }

/-- UP_FULL or UP_HALF by the modules that are up (R25). -/
def FordHalf.upState (f : FordHalf) : FordHalf := { f with state := if f.up0 && f.up1 then .upFull else .upHalf }

/-! ### Replay (R21, R22) -/

/-- `FORD_FLIT_BAD` (R22): the receiver discards this flit and every later one, and asks for a replay. -/
def execFordFlitBad (h : Half) (s : State) : Out :=
  onDev (fun d => if d.fordUp h then d.upd h fun x => { x with ford := { x.ford with discarding := true } } else d) s

/-- Retrain modules (R19): both ends show RETRAINING, and the modules are down until their training ends. -/
def Dev.fordRetrain (d : Dev) (ms : List Nat) : Dev :=
  (d.fordBoth fun f => ms.foldl (fun f m => f.setUp m false) { f with state := .retraining, resent := 0, discarding := false })
    |>.fordRaise .fordRetrain

/-- The modules that are enabled. -/
def Dev.modulesOn (d : Dev) : List Nat := [0, 1].filter fun m => d.moduleEn m

/-- `FORD_REPLAY_REQUEST` (R22): the sender `h` resends from the flit after the one named, on module `m`; 16 consecutive
replays of one flit retrain that module (R19). -/
def execFordReplayRequest (h : Half) (m : Nat) (s : State) : Out :=
  onDev (fun d =>
    if d.fordUp h && (d.half h.other).ford.discarding then
      let d := (d.fordAck h).sat h pgFORD 0x060
      let d := d.upd h.other fun x => { x with ford := { x.ford with discarding := false } }
      let n := (d.half h).ford.resent + 1
      if 16 ≤ n && (d.half h).ford.upOf m then d.fordRetrain [m]
      else d.upd h fun x => { x with ford := { x.ford with resent := n } }
    else d) s

/-- `FORD_IDLE_FLIT` (R22): a good idle flit frees the replay buffer and returns credits. -/
def execFordIdleFlit (h : Half) (s : State) : Out :=
  onDev (fun d => if d.fordUp h && !(d.half h).ford.discarding then d.fordAck h else d) s

/-- `FORD_LANE_REPAIR` (R19): a fifth lane of one direction retrains the module. -/
def execFordLaneRepair (h : Half) (m : Nat) (s : State) : Out :=
  onDev (fun d =>
    if d.fordUp h && (d.half h).ford.upOf m then
      if 4 ≤ (d.half h).ford.repairOf m then d.fordRetrain [m]
      else (d.upd h fun x => { x with ford := x.ford.setRepair m (x.ford.repairOf m + 1) }).raise h pgFORD .fordRepair
    else d) s

/-! ### The Ford lost (R19, R332, R333) -/

/-- Register accesses in flight over the Ford end as those of a dark page (R353). -/
def Dev.fordDark (d : Dev) (h : Half) (m : FordMsg) : Dev :=
  match m with
  | .regRd org a => (d.raise h pgJRNL .darkAccess (h.other.num * 4096 + a / 4096 % 4096)).emit (.regValue org a 0xFFFFFFFF)
  | .regWr org a v => d.applyGate .dark org h h.other (a / 4096 % 4096) (a % 4096) v
  | .regResp org a _ true =>
    (d.raise h.other pgJRNL .darkAccess (h.num * 4096 + a / 4096 % 4096)).emit (.regValue org a 0xFFFFFFFF)
  | _ => d

/-- Answer a half's cross-half requests that have no answer: reads with poison, writes with a normal completion (R332). -/
def Dev.crossLost (d : Dev) (h : Half) : Dev :=
  let cs := (d.half h).crossing
  let d := d.upd h fun x => { x with crossing := [] }
  cs.foldl (fun d c =>
    if c.isRead then d.deliver h { src := c.src, ld := c.ld, sailing := 0, data := some 0, poison := true, marks := false }
    else d.deliver h { src := c.src, ld := c.ld, sailing := (d.half h).sail.current, data := none }) d

/-- The Ford is lost and the device goes Split (R19, R332, R333, R342). -/
def Dev.fordLose (d : Dev) : Dev :=
  if d.single || d.west.ford.state == .lost then d
  else
    let lost : List (Half × FordMsg) := [Half.west, Half.east].flatMap fun h =>
      ((d.half h).ford.txq ++ (d.half h).ford.waitq).map fun m => (h, m)
    let d := d.fordBoth fun f => { state := .lost, repair0 := f.repair0, repair1 := f.repair1 }
    let d := d.fordRaise .fordLost
    let d := { d with split := true, rejoin := 0, lastCommon := min d.west.sail.current d.east.sail.current }
    let d := d.eachHalf fun d h => d.upd h fun x => { x with
      ctl := { x.ctl with remote := [] }
      sail := { x.sail with splitFrom := x.sail.sealed + 1 }
      mgmt := { x.mgmt with takeover := false } }
    let d := lost.foldl (fun d e => d.fordDark e.1 e.2) d
    let f := d.beacon.other
    let d := if d.sails f then d.openNext f else d
    let d := d.eachHalf fun d h => (d.openBoth h (d.half h).sail.current).crossLost h
    (((d.castSplit).keysSplit).note).seal

/-- `FORD_LOST` (R19): both modules are down, or no good flit has arrived for 200 µs. -/
def execFordLost (s : State) : Out := onDevS (fun d => d.fordLose) s

/-! ### Training -/

/-- A trained module in both halves, with the lanes each end repaired; more than 4 of one direction fail it (R19). -/
def Dev.moduleTrained (d : Dev) (m lw le : Nat) : Dev :=
  if lw ≤ 4 ∧ le ≤ 4 then
    (d.upd .west fun x => { x with ford := (x.ford.setUp m true).setRepair m lw }).upd .east fun x =>
      { x with ford := (x.ford.setUp m true).setRepair m le }
  else d

/-- Train the enabled modules that are down, with the lanes that fail at each end, in the order module 0 West and East,
module 1 West and East. -/
def Dev.fordTrain (d : Dev) (lanes : List Nat) : Dev :=
  (d.modulesOn.filter fun m => !(d.west.ford.upOf m)).foldl (fun d m =>
    d.moduleTrained m (lanes.getD (2 * m) 0) (lanes.getD (2 * m + 1) 0)) d

/-- `FORD_RETRAIN_DONE` (R19, R20): the Ford returns, and the master opens the next sailing at once; with no module up it is
lost. -/
def execFordRetrainDone (lanes : List Nat) (s : State) : Out :=
  onDevS (fun d =>
    if d.west.ford.state = .retraining then
      let d := d.fordTrain lanes
      if d.west.ford.up0 || d.west.ford.up1 then
        let d := d.fordBoth fun f => fordFlush f.upState
        let d := if d.modulesOn.all fun m => d.west.ford.upOf m then d else d.fordRaise .fordDegraded
        if d.sails d.beacon then d.openNext d.beacon else d
      else d.fordLose
    else d) s

/-- Retrain every enabled module, where the Ford is up. -/
def Dev.fordCmd (v : Nat) (d : Dev) : Option Dev :=
  if d.single then none
  else if v % 2 = 1 && d.fordUp .west then some (d.fordRetrain d.modulesOn) else some d

/-- `FORD_RETRAIN_CMD` (R25, R33). MODULE_EN is written with the value it has. -/
def execFordRetrainCmd (org : Origin) (h : Half) (s : State) : Out :=
  onDev (fun d => let v := d.fld h pgFORD 0x040 2 1 * 2 + 1
    d.command org h pgFORD 0x040 v (Dev.fordCmd v)) s

/-- A commit has changed MODULE_EN (R25): a disabled module stops, an enabled one trains while the other carries traffic. -/
def Dev.fordEnable (d : Dev) : Dev :=
  if d.single then d
  else
    let off := [0, 1].filter fun m => !(d.moduleEn m)
    let d := d.fordBoth fun f => off.foldl (fun f m => f.setUp m false) { f with joining := f.joining.filter fun m => !(off.contains m) }
    let f := d.west.ford
    if f.state = .upFull ∨ f.state = .upHalf then
      if f.up0 || f.up1 then
        d.fordBoth fun f => { f.upState with joining := d.modulesOn.filter fun m => !(f.upOf m) }
      else d.fordLose
    else d

/-- `FORD_MODULE_TRAIN_DONE` (R25): the module joins, or stays down with `FORD_DEGRADED`. -/
def execFordModuleTrainDone (m lanesWest lanesEast : Nat) (s : State) : Out :=
  onDev (fun d =>
    if d.west.ford.joining.contains m && d.west.ford.state == .upHalf then
      let d := (d.fordBoth fun f => { f with joining := f.joining.filter (· != m) }).moduleTrained m lanesWest lanesEast
      let d := d.fordBoth fun f => f.upState
      if d.west.ford.upOf m then d else d.fordRaise .fordDegraded
    else d) s

end Sys2Proof.Machine
end

