-- ==== Sys2Proof/Machine/Cipher.lean ====
section
/-! DEFINITION. Chapter 10, the queued engine: requests and their checks (R266, R267), arbitration, preemption and ageing
(R268, R269), results and completions (R270). -/

namespace Sys2Proof.Machine

/-! ### Checks (R266, R267) -/

/-- Length and source bytes of a request, its tweak and expected tag. -/
def CiphReq.len (q : CiphReq) : Nat := q.f 127 104
def CiphReq.bytes (q : CiphReq) : List Nat := ((q.src ++ List.replicate q.len (0 : Byte)).take q.len).map fun b => b.toNat
def CiphReq.tweak (q : CiphReq) : Nat := q.f 383 256

/-- The trailer of a tile request. -/
def CiphReq.trailer (q : CiphReq) : List Nat := q.bytes.drop 65536

/-- A request breaks a rule of R266 or R267. -/
def CiphReq.bad (q : CiphReq) : Bool :=
  let op := q.f 7 0
  let ksrc := q.f 25 24
  let ksel := q.f 39 37
  let key := fromLe ((q.trailer.drop 16).take 2)
  q.f 103 64 != 0 || q.f 47 40 != 0 || q.f 23 18 != 0 || q.f 15 8 != 0 || op == 0 || decide (9 < op) || q.len == 0
    || ksrc == 3 || (ksrc == 1 && decide (3 < ksel)) || (ksrc == 2 && decide (2 < ksel))
    || ((op == 1 || op == 2) && (ksrc != 0 || q.len % 4096 != 0))
    || ((op == 5 || op == 6 || op == 7) && (ksrc != 0 || q.len != 65792 || key % 2048 != q.f 35 26 + 1024 * q.f 36 36))
    || ((op == 8 || op == 9) && (ksrc == 0 || q.len % 8 != 0))
    || (op == 8 && (decide (q.len < 16) || decide (4096 < q.len)))
    || (op == 9 && (decide (q.len < 24) || decide (4104 < q.len)))

/-! ### Results -/

/-- The key of a request that does not run XTS: the slot's CMAC key, a session key, or an internal key (R266). -/
def Dev.ciphKey (d : Dev) (h : Half) (q : CiphReq) : Option (BitVec 256) :=
  let sel := q.f 39 37
  match q.f 25 24 with
  | 0 => some (d.kslot h (q.f 35 26)).cmac
  | 1 => (d.half h).fery.keys.map fun k =>
    if sel = 0 then k.macTx else if sel = 1 then k.macRx else if sel = 2 then k.wrapTx else k.wrapRx
  | _ =>
    if sel = 2 then (d.keys.transports.find? fun t => t.org == q.org).map (·.key)
    else (d.half h).boot.keys.map fun k => if sel = 0 then k.recMac else k.recWrap

/-- The key is there when the request is dispatched; otherwise `NO_KEY` (R270). -/
def Dev.ciphHasKey (d : Dev) (h : Half) (q : CiphReq) : Bool :=
  if q.f 25 24 = 0 then (d.kslot h (q.f 35 26)).serves (q.f 36 36 == 1) else (d.ciphKey h q).isSome

/-- XTS over data units of 4,096 bytes: unit u adds u to tweak bits [39:0] (R267). -/
def xtsRun (enc : Bool) (k : BitVec 256 × BitVec 256) (tweak : Nat) (b : List Nat) : List Nat :=
  (pieces 4096 ((b.length + 4095) / 4096) b).zipIdx.flatMap fun u =>
    xts enc k.1.toNat k.2.toNat (tweak / 2 ^ 40 * 2 ^ 40 + (tweak % 2 ^ 40 + u.2) % 2 ^ 40) u.1

/-- STATUS and the bytes that DST receives (R267, R270). -/
def Dev.ciphRun (d : Dev) (h : Half) (q : CiphReq) : Nat × List Nat :=
  let k := d.kslot h (q.f 35 26)
  let pr := k.pair (q.f 36 36 == 1)
  let key := ((d.ciphKey h q).getD 0).toNat
  let b := q.bytes
  let sectors := b.take 65536
  let tr := q.trailer
  let tw := sectorTweak k.gen (q.f 36 36 == 1) (16 * (fromLe (tr.take 8) % 2 ^ 36))
  let tag := cmac k.cmac.toNat (tr.take 240 ++ sectors)
  match q.f 7 0 with
  | 1 => (0, xtsRun true pr q.tweak b)
  | 2 => (0, xtsRun false pr q.tweak b)
  | 3 => (0, cmac key b)
  | 4 => (if fromLe (cmac key b) = q.f 255 128 then 0 else 1, [])
  | 5 =>
    let c := xtsRun true pr tw sectors
    (0, c ++ tr.take 240 ++ cmac k.cmac.toNat (tr.take 240 ++ c))
  | 6 => if tag = tr.drop 240 then (0, xtsRun false pr tw sectors) else (1, [])
  | 7 => (if tag = tr.drop 240 then 0 else 1, [])
  | 8 => (0, (kwWrap key (q.tweak % 2 ^ 64) ((pieces 8 (q.len / 8) b).map fromBe)).flatMap (toBe 8))
  | _ =>
    let u := kwUnwrap key ((pieces 8 (q.len / 8) b).map fromBe)
    if u.1 = q.tweak % 2 ^ 64 then (0, u.2.flatMap (toBe 8)) else (5, [])

/-! ### Arbitration (R268) -/

/-- Replace a request of the queue. -/
def Dev.ciphUpd (d : Dev) (h : Half) (q : CiphReq) : Dev :=
  d.upd h fun x => { x with ciph := { x.ciph with queue := x.ciph.queue.map fun r => if r.id = q.id then q else r } }

/-- The request that a core runs. -/
def CiphHalf.running (c : CiphHalf) (core : Nat) : Option CiphReq := c.queue.find? fun q => q.core == some core && !q.suspended

/-- A request of a slot and phase whose load is deferred waits for the new keys (R273). -/
def Dev.ciphWaits (d : Dev) (h : Half) (q : CiphReq) : Bool :=
  match d.keys.cmd with
  | some c => (c.op == 2 || c.op == 3) && (d.kslot h c.slot).pending && q.slotOf == some (c.slot, c.phase)
      && decide ((match h with
        | .west => c.beforeW
        | .east => c.beforeE) ≤ q.id)
  | none => false

/-- The oldest request of the highest class. -/
def bestReq (l : List CiphReq) : Option CiphReq :=
  l.foldl (fun b q => match b with
    | none => some q
    | some c => if q.cls < c.cls ∨ (q.cls = c.cls ∧ q.id < c.id) then some q else some c) none

/-- Let a core take a request: one that is suspended there resumes; a new one without its key completes `NO_KEY`. -/
def Dev.ciphTake (d : Dev) (h : Half) (core : Nat) (q : CiphReq) : Dev :=
  if q.suspended then d.ciphUpd h { q with suspended := false }
  else if !(d.ciphHasKey h q) then d.ciphDone h q 3 0 []
  else
    (d.ciphUpd h { q with core := some core, started := (d.half h).ciph.nextId }).upd h fun x => { x with
      ciph := { x.ciph with nextId := x.ciph.nextId + 1 } }

/-- Cores in service. -/
def Dev.ciphCores (d : Dev) (h : Half) : List Nat :=
  (List.range 4).filter fun c => (d.fld h pgCIPH 0x040 3 0).testBit c && !((d.half h).ciph.coreFailed.getLsbD c)

/-- One act of the arbiter: a free core takes a request, or a request that waits preempts the core whose request has the
lowest class, of equals the one started last. -/
def Dev.ciphStep (d : Dev) (h : Half) : Option Dev :=
  let c := (d.half h).ciph
  let cores := d.ciphCores h
  let wait := c.queued.filter fun q => !(d.ciphWaits h q)
  match cores.find? fun k => (c.running k).isNone && (!wait.isEmpty || c.queue.any fun q => q.core == some k && q.suspended) with
  | some k => (bestReq (wait ++ c.queue.filter fun q => q.core == some k && q.suspended)).map fun q => d.ciphTake h k q
  | none =>
    match bestReq wait with
    | none => none
    | some q =>
      let low := (cores.filterMap fun k => c.running k).foldl (fun b r => match b with
        | none => some r
        | some o => if o.cls < r.cls ∨ (o.cls = r.cls ∧ o.started < r.started) then some r else some o) none
      match low with
      | some r =>
        if q.cls < r.cls then
          let d := (d.ciphUpd h { r with suspended := true, suspends := r.suspends + 1 }).wrap64 h pgCIPH 0x068
          r.core.map fun k => d.ciphTake h k q
        else none
      | none => none

/-- Run the arbiter until it has nothing to do. -/
def Dev.ciphGo (h : Half) : Nat → Dev → Dev
  | 0, d => d
  | n + 1, d => match d.ciphStep h with
    | some d => Dev.ciphGo h n d
    | none => d

/-- The arbiter, with room for every request of the queue and every submitter that waits to move on. -/
def Dev.ciphServe (d : Dev) (h : Half) : Dev :=
  let c := (d.half h).ciph
  Dev.ciphGo h (2 * (c.queue.length + c.waiting.length) + 8) d

/-- Submit a request (R265): into the queue, or to wait for an entry. A malformed one completes `BAD_REQ`. -/
def Dev.ciphSubmit (d : Dev) (h : Half) (org : Origin) (bits : BitVec 512) (src : List Byte) : Dev :=
  let q : CiphReq := { id := (d.half h).ciph.nextId, bits := bits, src := src, org := org, queuedAt := d.uptime }
  let d := d.upd h fun x => { x with ciph := { x.ciph with nextId := x.ciph.nextId + 1 } }
  if q.bad then d.ciphDone h q 4 0 []
  else
    let d := d.upd h fun x => { x with ciph :=
      if x.ciph.waiting.isEmpty && x.ciph.room q then { x.ciph with queue := x.ciph.queue ++ [q] }
      else { x.ciph with waiting := x.ciph.waiting ++ [q] }.fill }
    d.ciphServe h

/-- A request whose OP is that of its row. -/
def ciphReq (op : Nat) (h : Half) (org : Origin) (req : BitVec 512) (src : List Byte) (s : State) : Out :=
  onDev (fun d => d.ciphSubmit h org (BitVec.ofNat 512 (req.toNat / 256 * 256 + op)) src) s

/-- The operations of R267, submitted with the request's 64 bytes and the bytes of its source buffer. -/
def execXtsEnc (h : Half) (org : Origin) (req : BitVec 512) (src : List Byte) (s : State) : Out := ciphReq 1 h org req src s
def execXtsDec (h : Half) (org : Origin) (req : BitVec 512) (src : List Byte) (s : State) : Out := ciphReq 2 h org req src s
def execCmacGen (h : Half) (org : Origin) (req : BitVec 512) (src : List Byte) (s : State) : Out := ciphReq 3 h org req src s
def execCmacVerify (h : Half) (org : Origin) (req : BitVec 512) (src : List Byte) (s : State) : Out := ciphReq 4 h org req src s
def execTileSeal (h : Half) (org : Origin) (req : BitVec 512) (src : List Byte) (s : State) : Out := ciphReq 5 h org req src s
def execTileOpen (h : Half) (org : Origin) (req : BitVec 512) (src : List Byte) (s : State) : Out := ciphReq 6 h org req src s
def execTileVerify (h : Half) (org : Origin) (req : BitVec 512) (src : List Byte) (s : State) : Out := ciphReq 7 h org req src s
def execWrap (h : Half) (org : Origin) (req : BitVec 512) (src : List Byte) (s : State) : Out := ciphReq 8 h org req src s
def execUnwrap (h : Half) (org : Origin) (req : BitVec 512) (src : List Byte) (s : State) : Out := ciphReq 9 h org req src s

/-- `CIPHER_REQUEST_DONE` (R270): the request that a core runs completes after an elapsed time in ns. -/
def execCipherRequestDone (h : Half) (core elapsed : Nat) (s : State) : Out :=
  onDev (fun d => match (d.half h).ciph.running core with
    | none => d
    | some q =>
      let r := d.ciphRun h q
      (d.ciphDone h q r.1 elapsed (r.2.map (BitVec.ofNat 8))).ciphServe h) s

/-- `CIPHER_AGEING` (R268): the oldest normal or bulk request that has waited 1 ms is served as a high one from now on. -/
def execCipherAgeing (h : Half) (s : State) : Out :=
  onDev (fun d => match ((d.half h).ciph.queue ++ (d.half h).ciph.waiting).find? fun q => !q.aged && q.core.isNone && decide (1 < q.f 17 16) with
    | none => d
    | some q =>
      let old (l : List CiphReq) : List CiphReq := l.map fun r => if r.id = q.id then { r with aged := true } else r
      (d.upd h fun x => { x with ciph := { x.ciph with queue := old x.ciph.queue, waiting := old x.ciph.waiting } }).ciphServe h) s

/-- `CORE_FAILED` (R270): the core leaves service; its request completes `CORE_FAIL` and is submitted again, and so are those
suspended in it. -/
def execCoreFailed (h : Half) (core : Nat) (s : State) : Out :=
  onDev (fun d =>
    if 4 ≤ core || (d.half h).ciph.coreFailed.getLsbD core then d
    else
      let qs := (d.half h).ciph.queue.filter fun q => q.core == some core
      let d := d.upd h fun x => { x with ciph := { x.ciph with coreFailed := x.ciph.coreFailed ||| BitVec.twoPow 4 core } }
      let d := d.raise h pgCIPH .coreFailed core
      let d := qs.foldl (fun d q => (d.ciphDone h q 7 0 []).ciphSubmit h q.org q.bits q.src) d
      d.ciphServe h) s

/-- Last Ferry withdraws the queued requests below the urgent class (R279). -/
def Dev.ciphAbort (d : Dev) (h : Half) : Dev :=
  let c := (d.half h).ciph
  ((c.queued ++ c.waiting).filter fun q => q.f 17 16 != 0).foldl (fun d q =>
    (d.upd h fun x => { x with ciph := { x.ciph with waiting := x.ciph.waiting.filter (·.id != q.id) } }).ciphDone h q 6 0 []) d

end Sys2Proof.Machine
end

