-- ==== Sys2Proof/Machine/Dram.lean ====
section
/-! DEFINITION. Chapter 06: refresh and ZQ (R161, R163), parity alerts and CA retraining (R164, R165, R174), self-refresh
(R166), the change of timing set (R167 to R169), drift (R173), the training helpers (R170, R178), failed subchannels (R175). -/

namespace Sys2Proof.Machine

/-! ### A subchannel fails (R175, R329) -/

/-- Resident tiles framed on a subchannel, in the order re-homing takes them: dirty ones by LAST_SAILING, oldest first, then
clean ones by age, youngest first (R330). -/
def Dev.tilesOn (d : Dev) (h : Half) (k : Nat) : List Nat :=
  let l := (d.half h).tier.manf.filter fun e => TileStateResident e.2.state && frameSub e.2.frame.toNat == k
  let dirty := (l.filter fun e => e.2.state != .dramClean).map fun e => (d.lastSailing h e.2, e.1)
  let clean := (l.filter fun e => e.2.state == .dramClean).map fun e => (d.ageOf h e.1, e.1)
  let sort (l : List (Nat × Nat)) : List Nat := (l.mergeSort fun a b => decide (a.1 ≤ b.1)).map (·.2)
  sort dirty ++ sort clean

/-- A tile goes DARK. -/
def Dev.goDark (d : Dev) (h : Half) (t : Nat) : Dev :=
  ((d.setTile h t { d.tile h t with state := .dark }).raise h pgMANF .tileDark (tileNo h t))

/-- Move the diagnostic frames of a failed subchannel to the lowest-numbered surviving one that has a free frame. -/
def Dev.diagRescue (d : Dev) (h : Half) (k : Nat) : Dev :=
  ((d.half h).ecc.diagFrames.zipIdx.filter fun e => frameSub e.1 == k).foldl (fun d e =>
    match (d.subs h).findSome? fun j => ((d.subFrame h j .freeRaw).orElse fun _ => d.subFrame h j .freeFmt).map fun q => (j, q.2) with
    | none => d
    | some (j, f) =>
      let d := d.setFrame h f { state := .diag, tile := e.2 }
      let d := d.upd h fun x => { x with ecc := { x.ecc with diagFrames := x.ecc.diagFrames.set e.2 f } }
      d.setFld h pgECCD (0x110 + e.2 / 4 * 4) (e.2 % 4 * 8 + 7) (e.2 % 4 * 8) j) d

/-- Fail a subchannel: its tiles go DARK, promotions into it start again elsewhere, a retirement copy that touches it ends,
its free frames leave the pool, and the events and health records go out. -/
def Dev.subFail (d : Dev) (h : Half) (k : Nat) : Dev :=
  if [SubState.failed, .absent, .disabled].contains (d.sub h k).state then d
  else
    let was := d.poolLimits h
    let ts := d.tilesOn h k
    let d := d.updSub h k fun s => { s with state := .failed, driftSlices := 0 }
    let d := match (d.half h).tier.copying with
      | none => d
      | some c =>
        if frameSub c.old = k || frameSub c.new = k then
          let d := d.upd h fun x => { x with tier := { x.tier with copying := none } }
          if frameSub c.new = k then d else d.freeFrame h c.new
        else d
    let restart (p : Promo) : Promo :=
      if p.frame.any fun f => frameSub f == k then { p with frame := none, img := none, recalling := [], poisoned := 0 } else p
    let d := d.upd h fun x => { x with tier := { x.tier with
      promos := x.tier.promos.map restart
      ftab := x.tier.ftab.filter fun e => !(frameSub e.1 == k && (e.2.state == .freeFmt || e.2.state == .used))
      dram := x.tier.dram.filter fun e => frameSub (e.1 / 1024) != k } }
    let d := ts.foldl (fun d t => d.goDark h t) d
    let d := d.upd h fun x => { x with tier := { x.tier with rehome := x.tier.rehome ++ ts } }
    let held := ((d.half h).tier.held.map fun r => lineTile r.line).filter fun t => ts.contains t
    let d := held.reverse.foldl (fun d t => d.darkFirst h t) d
    let d := (d.diagRescue h k).raise h (pgMEMC (k / 2)) .subchFailed k
    let d := (d.allLds.filter fun e => d.ldIn e.1 e.2 h).foldl (fun d e => d.logEvent e.1 e.2 .dram 0 (k * 2 ^ 59)) d
    let d := (d.healthEvent 2).gateNote h
    if was && !(d.poolLimits h) then d.raise h pgTIER .poolShrunk else d

/-! ### Refresh, ZQ, self-refresh -/

/-- `REFRESH` (R161, R166): REFab to every rank; a subchannel in self-refresh refreshes itself. -/
def execRefresh (h : Half) (k : Nat) (s : State) : Out :=
  onDev (fun d => if k < 24 && d.subOk h k && (d.sub h k).state != .selfRefresh then
    d.updSub h k fun c => { c with refreshes := c.refreshes + 1 } else d) s

/-- `ZQ_CALIBRATION` (R163): the next rank. -/
def execZqCalibration (h : Half) (k : Nat) (s : State) : Out :=
  onDev (fun d => if k < 24 && d.subOk h k && (d.sub h k).state != .selfRefresh then
    d.updSub h k fun c => { c with zqRank := (c.zqRank + 1) % d.ranks h (k / 2) } else d) s

/-- `SELF_REFRESH_ENTRY` (R166): a subchannel without requests enters; `SR_IDLE_US` = 0 disables it. -/
def execSelfRefreshEntry (h : Half) (k : Nat) (s : State) : Out :=
  onDev (fun d =>
    let busy := (d.half h).tier.dramReads.any fun r => frameSub (d.tile h (lineTile r.line)).frame.toNat == k
    if (d.sub h k).state = .up && !busy && !(d.subHeld h k) && d.fld h (pgMEMC (k / 2)) 0x040 31 16 != 0 && decide (k < 24) then
      (d.updSub h k fun c => { c with state := .selfRefresh }).wrap32 h (pgMEMC (k / 2)) 0x074
    else d) s

/-! ### Parity alerts and CA retraining -/

/-- The subchannels of a channel that are in service. -/
def Dev.liveSubs (d : Dev) (h : Half) (c : Nat) : List Nat := [2 * c, 2 * c + 1].filter fun k => d.subOk h k

/-- `ALERT_N` (R164, R165): both subchannels replay. `again` says that ALERT_n asserted while a replayed command was still in
the window, so that the replay failed; `late` counts the refreshes that fell due meanwhile (R176). -/
def execAlertN (h : Half) (c : Nat) (again : Bool) (late : Nat) (s : State) : Out :=
  onDevT (fun d =>
    let pg := pgMEMC c
    if 12 ≤ c || (d.liveSubs h c).isEmpty then d
    else
      let d := (d.liveSubs h c).foldl (fun d k => d.subWake h k) (d.sat h pg 0x068)
      let d := if late = 0 then d else d.sat h pg 0x070 (min late 2)
      if !again then (d.liveSubs h c).foldl (fun d k => d.raise h pg .parityReplay k) d
      else
        let d := d.sat h pg 0x06C
        let fails := d.uptime :: ((d.chan h c).replayFails.filter fun t => decide (d.uptime < t + 1000000))
        if fails.length < 3 then
          (d.liveSubs h c).foldl (fun d k => d.raise h pg .parityReplay k) (d.updChan h c fun x => { x with replayFails := fails })
        else
          let d := (d.updChan h c fun x => { x with replayFails := [] }).raise h pg .replayRetrain (2 * c)
          if d.mgmtLost h && !(d.served h) then (d.liveSubs h c).foldl (fun d k => d.subFail h k) d
          else (d.liveSubs h c).foldl (fun d k => d.updSub h k fun x =>
            { x with resume := if x.state == .retraining then x.resume else x.state, state := .retraining }) d) s

/-- `CA_RETRAIN_DONE` (R174): each subchannel of the channel resumes, or fails. -/
def execCaRetrainDone (h : Half) (c : Nat) (ok0 ok1 : Bool) (s : State) : Out :=
  onDevT (fun d => [(2 * c, ok0), (2 * c + 1, ok1)].foldl (fun d e =>
    if 12 ≤ c || (d.sub h e.1).state != .retraining then d
    else if e.2 then (d.updSub h e.1 fun x => { x with state := x.resume }).raise h (pgMEMC c) .trainDone e.1
    else d.subFail h e.1) d) s

/-! ### The change of timing set (R168, R169) -/

/-- Subchannels of a DDR island in service. -/
def Dev.isleSubs (d : Dev) (h : Half) (i : Nat) : List Nat := ((List.range 4).map (4 * i + ·)).filter fun k => d.subOk h k

/-- Start the change of the first island from `i` that has a subchannel in service, or end it and make the next order. -/
def Dev.setIsland (d : Dev) (h : Half) (i : Nat) (b : Bool) : Dev :=
  match ((List.range 6).filter fun j => decide (i ≤ j) && !(d.isleSubs h j).isEmpty).head? with
  | some j =>
    (d.upd h fun x => { x with dram := { x.dram with changing := some (j, b) } }) |> fun d =>
      (d.isleSubs h j).foldl (fun d k => d.updSub h k fun x =>
        if x.state == .up || x.state == .selfRefresh then { x with state := .freqChange } else x) d
  | none => d.upd h fun x => { x with dram := { x.dram with changing := none } }

/-- Order a set for the whole half. -/
def Dev.orderSet (d : Dev) (h : Half) (b : Bool) : Dev :=
  if (d.half h).dram.changing.isSome then d.upd h fun x => { x with dram := { x.dram with nextOrder := some b } }
  else if (d.subs h).all fun k => (d.chan h (k / 2)).setB == b then
    (d.subs h).foldl (fun d k => d.raise h (pgMEMC (k / 2)) .freqDone k) d
  else d.setIsland h 0 b

/-- A write of `MEMC.FREQ` (R169): refused while firmware trains (R176); only recorded while T3 is in force. -/
def Dev.freqSel (h : Half) (v : Nat) (d : Dev) : Option Dev :=
  if !((d.half h).dram.trained) then none
  else
    let b := v % 2 == 1
    let d := d.upd h fun x => { x with dram := { x.dram with freqSel := b } }
    some (if (d.half h).thrm.step = 3 then d else d.orderSet h b)

/-- `FREQ_SEL` (R169). -/
def execFreqSel (org : Origin) (h : Half) (c : Nat) (v : Nat) (s : State) : Out :=
  onDevT (fun d => if 12 ≤ c then d else d.command org h (pgMEMC c) 0x054 (v % 2) (Dev.freqSel h v)) s

/-- `FREQ_CHANGE_DONE` (R168): the island runs its new set, and the next island starts; then the latest other order. -/
def execFreqChangeDone (h : Half) (s : State) : Out :=
  onDevT (fun d => match (d.half h).dram.changing with
    | none => d
    | some (i, b) =>
      if (d.isleSubs h i).any fun k => (d.sub h k).state == .retraining then d
      else
        let d := [2 * i, 2 * i + 1].foldl (fun d c => d.updChan h c fun x => { x with setB := b }) d
        let d := (d.isleSubs h i).foldl (fun d k =>
          (d.updSub h k fun x => if x.state == .freqChange then { x with state := .up } else x).raise h (pgMEMC (k / 2)) .freqDone k) d
        let d := d.setIsland h (i + 1) b
        if (d.half h).dram.changing.isSome then d
        else match (d.half h).dram.nextOrder with
          | none => d
          | some n =>
            let d := d.upd h fun x => { x with dram := { x.dram with nextOrder := none } }
            if n = b then d else d.orderSet h n) s

/-! ### Drift (R173, R174) -/

/-- A training array of a channel: the set's own words, by register offset. -/
def Chan.arr (x : Chan) (b : Bool) : SMap Word := if b then x.setArrB else x.setArrA
def Chan.setArr (x : Chan) (b : Bool) (m : SMap Word) : Chan := if b then { x with setArrB := m } else { x with setArrA := m }

/-- Reset value of an array word: RX_VREF 0x32, else 0 (R178). -/
def arrReset (off : Nat) : Word := if 0x770 ≤ off ∧ off < 0x8B0 then 0x32 else 0

/-- Add fine steps to a delay, 12 bits. -/
def addSteps (m : SMap Word) (off : Nat) (n : Int) : SMap Word :=
  let v := ((smGetD m off 0).toNat : Int) + n
  smPut m off 0 (BitVec.ofInt 12 v |>.setWidth 32)

/-- Apply a measurement's corrections, one for each of the subchannel's ten devices, to the write DQ and write DQS delays of the
active set, and add them to what the devices have drifted since training (R173). -/
def Dev.driftApply (d : Dev) (h : Half) (k : Nat) (steps : List Int) : Dev :=
  let x := d.chan h (k / 2)
  let m := (steps.take 10).zipIdx.foldl (fun m e =>
    let dev := 10 * (k % 2) + e.2
    let m := addSteps m (0x680 + 4 * dev) e.1
    (List.range 4).foldl (fun m i => addSteps m (0x400 + 4 * (4 * dev + i)) e.1) m) (x.arr x.setB)
  (d.updChan h (k / 2) fun y => y.setArr y.setB m).updSub h k fun y => { y with
    drift := y.drift.zipIdx.map fun e => e.1 + (steps.getD e.2 0) }

/-- A drift limit is passed: a device's correction since training, or 20 degrees of case temperature (R173). -/
def Dev.driftFar (d : Dev) (h : Half) (k : Nat) : Bool :=
  let y := d.sub h k
  let x := d.chan h (k / 2)
  (y.drift.any fun v => decide (d.fld h (pgMEMC (k / 2)) 0x060 7 0 < v.natAbs))
    || decide (20 ≤ max x.caseTemp x.trainTemp - min x.caseTemp x.trainTemp)

/-- `DRIFT_MEASURE` (R173): the oscillator of each rank is read; a limit passed starts a drift retrain, where none runs and a
complex is there to run it. -/
def execDriftMeasure (h : Half) (k : Nat) (steps : List Int) (s : State) : Out :=
  onDev (fun d =>
    if 24 ≤ k || !(d.subOk h k) then d
    else
      let d := d.driftApply h k steps
      if (d.sub h k).driftSlices = 0 && d.driftFar h k then
        let d := d.raise h (pgMEMC (k / 2)) .driftRetrain k
        if d.mgmtLost h && !(d.served h) then d else d.updSub h k fun y => { y with driftSlices := 1 }
      else d) s

/-- `DRIFT_RETRAIN_SLICE` (R174): one slice of a running drift retrain. At the last one the new settings (offset and value)
take effect together, or the subchannel fails. -/
def execDriftRetrainSlice (h : Half) (k : Nat) (last ok : Bool) (new : List (Nat × Nat)) (s : State) : Out :=
  onDevT (fun d =>
    if 24 ≤ k || (d.sub h k).driftSlices = 0 || (d.sub h k).state = .retraining || (d.sub h k).state = .freqChange then d
    else if !last then d.updSub h k fun y => { y with driftSlices := y.driftSlices + 1 }
    else if !ok then d.subFail h k
    else
      let d := d.updChan h (k / 2) fun y => { y.setArr y.setB
        (new.foldl (fun m e => smPut m e.1 (arrReset e.1) (BitVec.ofNat 32 e.2)) (y.arr y.setB)) with trainTemp := y.caseTemp }
      (d.updSub h k fun y => { y with driftSlices := 0, drift := List.replicate 10 0 }).raise h (pgMEMC (k / 2)) .trainDone k) s

/-! ### Training helpers (R170, R178) -/

/-- `DTRN.RUN_STATUS`. -/
def Dev.runStatus (d : Dev) (h : Half) (c st val : Nat) : Dev := d.setReg h (pgDTRN c) 0x054 (st * 2 ^ 30 + val % 2 ^ 16)

/-- Start a run (R178): refused for other OPs, outside training mode but for OP 9, with a seed of 0 or mode 3, and while one
runs. It clears the lane errors; a run that writes puts the row under test into the save buffer. -/
def Dev.dtrnRun (h : Half) (c v : Nat) (d : Dev) : Option Dev :=
  let pg := pgDTRN c
  let op := v % 16
  if op = 0 || 9 < op || (op != 9 && d.fld h pg 0x040 31 31 == 0) || (d.reg h pg 0x04C).toNat % 2 ^ 31 = 0
      || d.fld h pg 0x048 31 30 == 3 || (d.chan h c).runPending.isSome then none
  else
    let row := (d.fld h pg 0x040 23 20, d.fld h pg 0x040 19 15, d.fld h pg 0x044 17 0)
    let d := (d.setWords h pg 0x060 3 0).setWords h pg 0x070 40 0
    let d := d.updChan h c fun x => { x with runPending := some op, saved := if op = 1 || op = 3 then some row else none }
    some (d.runStatus h c 1 0)

/-- Show a refused run. -/
def Dev.dtrnNo (h : Half) (c : Nat) (d : Dev) : Dev := d.setFld h (pgDTRN c) 0x054 31 30 3

/-- A run of an OP with its bursts and repetitions. -/
def dtrnWrite (org : Origin) (h : Half) (c op bursts rep : Nat) (s : State) : Out :=
  onDev (fun d =>
    if 12 ≤ c then d
    else
      let v := rep % 65536 * 65536 + bursts % 256 * 256 + op
      d.command org h (pgDTRN c) 0x050 v (Dev.dtrnRun h c v) false true (Dev.dtrnNo h c)) s

/-- The nine runs of `DTRN.RUN` (R178), OP 1 to 9. -/
def execDtrnWritePattern (org : Origin) (h : Half) (c bursts rep : Nat) (s : State) : Out := dtrnWrite org h c 1 bursts rep s
def execDtrnReadCompare (org : Origin) (h : Half) (c bursts rep : Nat) (s : State) : Out := dtrnWrite org h c 2 bursts rep s
def execDtrnWriteReadCompare (org : Origin) (h : Half) (c bursts rep : Nat) (s : State) : Out := dtrnWrite org h c 3 bursts rep s
def execDtrnTrainingPatternRead (org : Origin) (h : Half) (c bursts rep : Nat) (s : State) : Out :=
  dtrnWrite org h c 4 bursts rep s
def execDtrnCsLoopback (org : Origin) (h : Half) (c bursts rep : Nat) (s : State) : Out := dtrnWrite org h c 5 bursts rep s
def execDtrnCaLoopback (org : Origin) (h : Half) (c bursts rep : Nat) (s : State) : Out := dtrnWrite org h c 6 bursts rep s
def execDtrnWriteLevelSample (org : Origin) (h : Half) (c bursts rep : Nat) (s : State) : Out := dtrnWrite org h c 7 bursts rep s
def execDtrnGateSample (org : Origin) (h : Half) (c bursts rep : Nat) (s : State) : Out := dtrnWrite org h c 8 bursts rep s
def execDtrnDqsOscillator (org : Origin) (h : Half) (c bursts rep : Nat) (s : State) : Out := dtrnWrite org h c 9 bursts rep s

/-- `DTRN_RUN_DONE` (R178): the run ends with the errors of each lane (a compare) or with a value (a sample, an oscillator
count). The saved row is written back. -/
def execDtrnRunDone (h : Half) (c : Nat) (errs : List Nat) (val : Nat) (s : State) : Out :=
  onDev (fun d => match (d.chan h c).runPending with
    | none => d
    | some op =>
      let pg := pgDTRN c
      let cmp := op = 2 || op = 3 || op = 4
      let e (i : Nat) : Nat := if cmp then min (errs.getD i 0) 0xFFFF else 0
      let d := (List.range 40).foldl (fun d k => d.setReg h pg (0x070 + 4 * k) (e (2 * k + 1) * 65536 + e (2 * k))) d
      let mask := lsum ((List.range 80).map fun i => if e i = 0 then 0 else 2 ^ i)
      let d := d.setWords h pg 0x060 3 mask
      let d := d.updChan h c fun x => { x with runPending := none, saved := none }
      (d.runStatus h c 2 (if cmp || op = 1 then 0 else val)).raise h pg .dtrnDone) s

/-- Key of a mode register or control word. -/
def modeKey (v : Nat) : Nat := bitsOf v 31 31 * 2 ^ 12 + bitsOf v 27 24 * 2 ^ 8 + bitsOf v 23 16

/-- A write of `DTRN.MRW`: a write, or a read of what was written last; a register never written reads what the part holds,
which no rule gives (DESIGN CHOICE, notes/assumptions/4.md). -/
def Dev.dtrnMrw (h : Half) (c v : Nat) (d : Dev) : Option Dev :=
  let k := modeKey v
  if v.testBit 30 then
    match smGet (d.chan h c).modeRegs k with
    | some b => some ((d.runStatus h c 2 b.toNat).raise h (pgDTRN c) .dtrnDone)
    | none =>
      let r := d.free 8
      some ((r.2.runStatus h c 2 r.1.toNat).raise h (pgDTRN c) .dtrnDone)
  else some (((d.updChan h c fun x => { x with modeRegs := smSet x.modeRegs k (BitVec.ofNat 8 v) }).runStatus h c 2
    (d.fld h (pgDTRN c) 0x054 15 0)).raise h (pgDTRN c) .dtrnDone)

/-- The register value of a mode-register access. -/
def mrwWord (rcd rd : Bool) (rank addr val : Nat) : Nat :=
  bnum rcd * 2 ^ 31 + bnum rd * 2 ^ 30 + rank % 16 * 2 ^ 24 + addr % 256 * 2 ^ 16 + val % 256

/-- `DTRN_MRW_WRITE` (R178). -/
def execDtrnMrwWrite (org : Origin) (h : Half) (c : Nat) (rcd : Bool) (rank addr val : Nat) (s : State) : Out :=
  onDev (fun d => if 12 ≤ c then d else
    d.command org h (pgDTRN c) 0x058 (mrwWord rcd false rank addr val) (Dev.dtrnMrw h c (mrwWord rcd false rank addr val))) s

/-- `DTRN_MRW_READ` (R178). -/
def execDtrnMrwRead (org : Origin) (h : Half) (c : Nat) (rcd : Bool) (rank addr : Nat) (s : State) : Out :=
  onDev (fun d => if 12 ≤ c then d else
    d.command org h (pgDTRN c) 0x058 (mrwWord rcd true rank addr 0) (Dev.dtrnMrw h c (mrwWord rcd true rank addr 0))) s

end Sys2Proof.Machine
end

