-- ==== Sys2Proof/Machine/Land.lean ====
section
/-! DEFINITION. Chapter 07: preload and locking (R187), ways that are disabled (R188), the drain (R190) and the eviction
buffer (R185). -/

namespace Sys2Proof.Machine

/-! ### Commands (R187) -/

/-- End a `LAND` command with a status. -/
def Dev.landEnd (d : Dev) (h : Half) (st : Nat) : Dev := (d.setFld h pgLAND 0x060 31 28 st).raise h pgLAND .landCmdDone

/-- Tiles of a range of lines. -/
def rangeTiles (first len : Nat) : List Nat :=
  (List.range ((first % 1024 + len + 1023) / 1024)).map fun i => (first / 1024 + i) % 2 ^ 35

/-- `PRELOAD`: BAD_ARG, REFUSED, or running. A cache that drains or is disabled has no way to load
(DEDUCED, notes/assumptions/27.md). -/
def Dev.preload (d : Dev) (h : Half) (w : Nat) : Dev :=
  let first := d.reg64 h pgLAND 0x050 % 2 ^ 46
  let len := d.fld h pgLAND 0x058 17 0
  let l := (d.half h).land
  let d := d.setReg h pgLAND 0x060 0
  if len = 0 || 131072 < len || lineHalf first != h || (d.half h).tier.backed * 1024 < first % 2 ^ 45 + len then d.landEnd h 3
  else if l.state == .draining || l.state == .disabled || !((d.waysEn h).testBit w) || l.locked.getLsbD w
      || (rangeTiles first len).any (fun t => !(d.tile h t).pinned) then d.landEnd h 5
  else (d.upd h fun x => { x with land := { x.land with preload := some { first := first, len := len, way := w } } }).setFld h
    pgLAND 0x060 31 28 1

/-- Ways set in a mask of 16. -/
def wayCount (m : Nat) : Nat := ((List.range 16).filter fun w => m.testBit w).length

/-- `LOCK`: REFUSED on a disabled way, LIMIT where locked ways, or locked and disabled ways together, would exceed 12. -/
def Dev.lockWay (d : Dev) (h : Half) (w : Nat) : Dev :=
  let l := (d.half h).land.locked ||| BitVec.twoPow 16 w
  if !((d.waysEn h).testBit w) then d.landEnd h 5
  else if 12 < wayCount l.toNat + (16 - wayCount (d.waysEn h)) then d.landEnd h 4
  else ((d.upd h fun x => { x with land := { x.land with locked := l } }).landNote h).landEnd h 2

/-- `UNLOCK`: the lines stay and become ordinary ones. -/
def Dev.unlockWay (d : Dev) (h : Half) (w : Nat) : Dev :=
  ((d.upd h fun x => { x with land := { x.land with locked := x.land.locked &&& ~~~(BitVec.twoPow 16 w) } }).landNote h).landEnd h 2

/-- A write of `LAND.CMD` (R187, R192): none where it is refused, because a command runs or OP is none of 1 to 3. -/
def Dev.landCmd (h : Half) (v : Nat) (d : Dev) : Option Dev :=
  let w := bitsOf v 19 16
  if (d.half h).land.preload.isSome then none
  else
    let d := d.setReg h pgLAND 0x05C (w * 2 ^ 16)
    match v % 16 with
    | 1 => some (d.preload h w)
    | 2 => some (d.lockWay h w)
    | 3 => some (d.unlockWay h w)
    | _ => none

/-- `PRELOAD`, `LOCK` and `UNLOCK` (R187): way and opcode are written to `LAND.CMD`; `CMD_ARG` and `CMD_LEN` hold the
range. -/
def landWrite (org : Origin) (h : Half) (w op : Nat) (s : State) : Out :=
  onDevT (fun d => d.command org h pgLAND 0x05C (w % 16 * 2 ^ 16 + op) (Dev.landCmd h (w % 16 * 2 ^ 16 + op))) s

/-- `PRELOAD` (R187). -/
def execPreload (org : Origin) (h : Half) (way : Nat) (s : State) : Out := landWrite org h way 1 s
/-- `LOCK` (R187). -/
def execLock (org : Origin) (h : Half) (way : Nat) (s : State) : Out := landWrite org h way 2 s
/-- `UNLOCK` (R187). -/
def execUnlock (org : Origin) (h : Half) (way : Nat) (s : State) : Out := landWrite org h way 3 s

/-- Write back and empty a slot; it stays as it is while its line must not leave: dirty of a DARK tile, or under
repair. -/
def Dev.slotClear (d : Dev) (h : Half) (key : Nat) : Bool × Dev :=
  match smGet (d.half h).land.slots key with
  | none => (true, d)
  | some e =>
    let line := landLine h key e.tag
    if !e.dirty then (true, d.landDrop h key)
    else if (d.tile h (lineTile line)).state = .dark || (d.repairOf h line).isSome then (false, d)
    else
      let p := d.landRead h key e
      match p.1.verdict with
      | .bad _ => (false, p.2.landBad h key e p.1)
      | _ => (true, (p.2.landClean h key e).landDrop h key)

/-- Load one line of a `PRELOAD` into its way: moved from another way, or read from its frame. `a` counts the collisions and
lists the sets already loaded. A line without a frame to read from is not loaded. -/
def Dev.preloadLine (h : Half) (w : Nat) (a : Nat × List Nat × Dev) (line : Nat) : Nat × List Nat × Dev :=
  let d := a.2.2
  let set := landSet line
  let key := set * 16 + w
  let did (d : Dev) : Nat × List Nat × Dev := (a.1 + bnum (a.2.1.contains set), set :: a.2.1, d)
  let keep (d : Dev) : Nat × List Nat × Dev := (a.1, a.2.1, d)
  match d.landFind h line with
  | some (k, e) =>
    if k = key then did d
    else
      let p := d.slotClear h key
      if p.1 then did ((p.2.landDrop h k).landPut h key e) else keep p.2
  | none =>
    let p := d.slotClear h key
    let e := d.tile h (lineTile line)
    if !p.1 || !(TileStateResident e.state) || (d.repairOf h line).isSome then keep p.2
    else
      let d := p.2.bufIssueTile h (lineTile line)
      let q := d.frameRead h e.frame.toNat (lineJ line) line {}
      match q.1.verdict with
      | .bad _ => keep (q.2.repairStart h line e.frame.toNat q.1 [])
      | _ => match q.2.plain h line q.1 with
        | none => keep q.2
        | some v => did (q.2.landPut h key { tag := landTag line, dirty := false, line := encodeLine line v q.1.tags })

/-- `LAND_CMD_DONE` (R187): the running `PRELOAD` has loaded its range. It waits for a tile that is RISING. -/
def execLandCmdDone (h : Half) (s : State) : Out :=
  onDevT (fun d => match (d.half h).land.preload with
    | none => d
    | some c =>
      if (rangeTiles c.first c.len).any fun t => (d.tile h t).state == .rising then d
      else
        let r := ((List.range c.len).map (c.first + ·)).foldl (Dev.preloadLine h c.way) (0, [], d)
        let d := r.2.2.upd h fun x => { x with land := { x.land with preload := none } }
        (d.setReg h pgLAND 0x060 (r.1 % 2 ^ 18)).landEnd h 2) s

/-! ### Failing ways (R188) -/

/-- Write back every dirty line that a test picks, in slot order, leaving it clean; a line of a DARK tile stays dirty. -/
def Dev.landFlush (d : Dev) (h : Half) (p : Nat → Bool) : Dev :=
  ((d.half h).land.slots.filter fun e => p e.1 && e.2.dirty).foldl (fun d e =>
    let line := landLine h e.1 e.2.tag
    if (d.tile h (lineTile line)).state = .dark || (d.repairOf h line).isSome then d
    else
      let r := d.landRead h e.1 e.2
      match r.1.verdict with
      | .bad _ => r.2.landBad h e.1 e.2 r.1
      | _ => r.2.landClean h e.1 e.2) d

/-- Dirty slots that a test picks. -/
def Dev.landDirty (d : Dev) (h : Half) (p : Nat → Bool) : Bool := (d.half h).land.slots.any fun e => p e.1 && e.2.dirty

/-- `WAY_DISABLED` (R188 steps 2 and 3): the walk of a way that is being disabled writes its dirty lines back; once none is
left, and the eviction buffer is clear of the way, the way is invalidated. -/
def execWayDisabled (h : Half) (way : Nat) (s : State) : Out :=
  onDevT (fun d =>
    if !((d.half h).land.disabling.contains way) then d
    else
      let d := d.landFlush h fun k => k % 16 == way
      if d.landDirty h (fun k => k % 16 == way) || (d.half h).land.buf.any (fun b => b.way == way) then d
      else (d.upd h fun x => { x with land := { x.land with
        slots := x.land.slots.filter fun e => e.1 % 16 != way
        disabling := x.land.disabling.filter fun w => w != way } }).raise h pgLAND .wayDisabled way) s

/-- `WAY_TALLY_EXPIRY` (R188). -/
def execWayTallyExpiry (h : Half) (way : Nat) (s : State) : Out :=
  onDev (fun d => if 16 ≤ way then d else
    (d.upd h fun x => { x with land := { x.land with tallyStart := smDel x.land.tallyStart way } }).setReg h pgLAND
      (0x080 + 4 * way) 0) s

/-! ### Disabling the cache (R190) -/

/-- A commit has cleared `LAND.CTRL.EN`: DISABLED at once where no line is dirty, else DRAINING; a running `PRELOAD` stops
as REFUSED (R190, R191). -/
def Dev.landOff (d : Dev) (h : Half) : Dev :=
  let l := (d.half h).land
  if l.state = .draining ∨ l.state = .disabled then d
  else
    let d := if l.preload.isSome then
        (d.upd h fun x => { x with land := { x.land with preload := none } }).landEnd h 5
      else d
    let st : LandState := if d.landDirty h (fun _ => true) then .draining else .disabled
    let off (x : LandHalf) : LandHalf :=
      if st = .disabled then { x with state := st, slots := [], locked := 0 } else { x with state := st }
    d.upd h fun x => { x with land := off x.land }

/-- A commit has set `LAND.CTRL.EN`: a DISABLED cache is ENABLED with every line invalid (R190). -/
def Dev.landOn (d : Dev) (h : Half) : Dev :=
  if (d.half h).land.state = .disabled then
    (d.upd h fun x => { x with land := { x.land with state := .enabled, slots := [] } }).landNote h
  else d

/-- `DRAIN_DONE` (R190): the drain's walk, then the buffer, then every line and lock. -/
def execDrainDone (h : Half) (s : State) : Out :=
  onDevT (fun d =>
    if (d.half h).land.state != .draining then d
    else
      let d := d.landFlush h fun _ => true
      let d := (List.range 16).foldl (fun d _ => d.bufIssue h) d
      if d.landDirty h (fun _ => true) || !((d.half h).land.buf.isEmpty) then d
      else (d.upd h fun x => { x with land := { x.land with
        state := .disabled, slots := [], locked := 0 } }).raise h pgLAND .drainDone) s

/-- `EVICTION_BUFFER_FREE` (R185): the oldest DRAM write of the buffer issues. -/
def execEvictionBufferFree (h : Half) (s : State) : Out := onDevT (fun d => d.bufIssue h) s

end Sys2Proof.Machine
end

