-- ==== Sys2Proof/Machine/FerySess.lean ====
section
/-! DEFINITION. Chapter 08, the link and its session: codewords and alignment blocks (R194 to R197), messages taken in
(R199, R205), set-up and rekey (R204, R206), pairing (R210), the loss of the twin (R211, R409), `RETRAIN` (R212), heartbeats
and generations (R199, R214), and the start of a resync (R216). -/

namespace Sys2Proof.Machine

/-- Change the Ferry link of a half. -/
def Dev.updFery (d : Dev) (h : Half) (f : FeryHalf → FeryHalf) : Dev := d.upd h fun x => { x with fery := f x.fery }

/-- Send what waits. -/
def Dev.pump (d : Dev) (h : Half) : Dev := (d.updFery h (feryPump d.split)).rekeyDone h

/-! ### Losing the twin (R211) -/

/-- The codeword and message layers as a new session finds them. Recalls without an answer wait to be asked again. -/
def FeryHalf.dropSession (f : FeryHalf) : FeryHalf :=
  { f with
    keys := none, rekey := none, rekeyAt := 2 ^ 40, paired := false, credits := 0, creditSlots := 0, creditsDue := 0
    txSeq := 0, rxSeq := 0, ctlq := [], stream := [], rxSlots := [], txCseq := 0, replay := [], rxCseq := 0xFFF
    nakSent := false, sinceAck := 0, lfsr := 0x7FFFFFFF, accSlots := [], accFirst := none, accLines := 0, accMsgs := 0
    recalls := [], recallWait := f.recalls ++ f.recallWait, capturing := [], streamWait := [], retraining := false }

/-- Declare the twin lost in a half (R211): the session ends, the lanes retrain, and the device goes solo; both halves stop
sending their streams. `cause` is the code of `SESSION_FAIL`, where it is raised. -/
def Dev.loseTwin (d : Dev) (h : Half) (cause : Option Nat) : Dev :=
  let f := (d.half h).fery
  let up := f.link == .session || f.link == .up
  let d := d.updFery h fun f => { f.dropSession with link := .retraining, lanesUp := 0 }
  let d := d.eachHalf fun d k => d.updFery k fun f => { f with stopSending := true, stream := [], synced := false }
  let d := if up then d.raise h pgFERY .ferryDown else d
  let d := match cause with
    | some c => d.raise h pgFERY .sessionFail c
    | none => d
  ((d.raise h pgFERY .twinLost).goSolo).repairReview

/-- A session is refused at set-up: it is tried again after 1 s (R409). A chain, hash or signature that fails declares the
twin lost (R211). -/
def Dev.setupFail (d : Dev) (h : Half) (cause : Nat) : Dev :=
  let d := d.updFery h fun f => { f.dropSession with retryDue := true }
  let d := d.raise h pgFERY .sessionFail cause
  if cause = 8 then d.raise h pgFERY .pairMismatch
  else ((d.raise h pgFERY .twinLost).goSolo).repairReview

/-! ### The codeword layer -/

/-- The next n bits of the scrambler x^31 + x^28 + 1, first bit most significant, and its state after them (R194;
DEDUCED, notes/assumptions/28.md). -/
def scrambler : Nat → BitVec 31 → Nat → BitVec 31 × Nat
  | 0, s, v => (s, v)
  | n + 1, s, v =>
    let b := s.getLsbD 30 ^^ s.getLsbD 27
    scrambler n ((s <<< 1) ||| BitVec.ofNat 31 (bnum b)) (2 * v + bnum b)

/-- Slot i of a codeword's 5,140 message bits, the first bit being the most significant (R194). -/
def cwSlot (bits : BitVec 5140) (i : Nat) : BitVec 256 := bits.extractLsb' (5120 - 256 * (i + 1)) 256

/-- Bits [hi:lo] of a slot. -/
def sf (s : BitVec 256) (hi lo : Nat) : Nat := bitsOf s.toNat hi lo

/-- The slots of a message by its header slot (R199); none for an unused opcode. -/
def msgLen (s : BitVec 256) : Option Nat :=
  match sf s 5 0 with
  | 0x00 => some 1
  | 0x01 => some (1 + 2 * (sf s 7 6 + 1))
  | 0x02 | 0x03 | 0x04 | 0x07 | 0x08 | 0x3F => some 1
  | 0x05 => some 3
  | 0x06 => some (if sf s 7 6 = 0 then 2057 else 1)
  | 0x09 => some 2
  | 0x0A => some (1 + sf s 87 72)
  | 0x0B => some 5
  | _ => none

/-- No unused opcode stands where a message begins. -/
def slotsOk : Nat → List (BitVec 256) → Bool
  | 0, _ => true
  | _, [] => true
  | n + 1, s :: rest =>
    match msgLen s with
    | none => false
    | some k => slotsOk n (rest.drop (k - 1))

/-- `FERRY_CODEWORD` (R194 to R197): `bits` are the message bits as the FEC hands them on, still scrambled, and `fixed` the
symbols it had to correct; beyond 15 the codeword is uncorrectable and is answered by a NAK. A codeword out of order is
discarded. -/
def execFerryCodeword (h : Half) (bits : BitVec 5140) (fixed : Nat) (s : State) : Out :=
  onDevT (fun d =>
    let f := (d.half h).fery
    if f.link != .up && f.link != .session then d
    else
      let sc := scrambler 5140 f.lfsr 0
      let d := d.updFery h fun f => { f with lfsr := sc.1 }
      if 15 < fixed then
        ((d.wrap64 h pgFERY 0x0B8).updFery h fun f => { f with nakSent := true }).feryCtl h (.linkCtl f.rxCseq true)
      else
        let d := if 0 < fixed then d.wrap64 h pgFERY 0x0B0 else d
        let m := bits ^^^ BitVec.ofNat 5140 sc.2
        let hd := m.extractLsb' 5120 20
        let cseq := hd.extractLsb' 8 12
        if cseq != f.rxCseq + 1 then d
        else
          let slots := f.rxSlots ++ (List.range 20).map (cwSlot m)
          let d := d.updFery h fun f => { f with
            rxCseq := cseq, nakSent := false, sinceAck := f.sinceAck + 1, rxSlots := slots
            credits := f.credits + (hd.extractLsb' 0 8).toNat }
          if slotsOk slots.length slots then d.pump h else d.loseTwin h (some 2)) s

/-- `LINK_CTL_DUE` (R197): the receiver names the last codeword in order. -/
def execLinkCtlDue (h : Half) (s : State) : Out :=
  onDevT (fun d =>
    let f := (d.half h).fery
    if f.link != .up && f.link != .session then d
    else (d.updFery h fun f => { f with sinceAck := 0 }).feryCtl h (.linkCtl f.rxCseq false)) s

/-- `FERRY_ALIGNMENT_BLOCK` (R194, R196): 340 bits, first bit most significant, on a physical lane; `bip` is the parity of the
lane's bits since the last block. A lane whose pair is swapped shows every bit inverted. -/
def execFerryAlignmentBlock (h : Half) (lane : Nat) (bits : BitVec 340) (bip : BitVec 8) (s : State) : Out :=
  onDev (fun d =>
    let b := if bits.extractLsb' 300 40 = 0xF0C3A5960F#40 then bits else ~~~bits
    let n := b.extractLsb' 292 8
    if b.extractLsb' 300 40 != 0xF0C3A5960F#40 || b.extractLsb' 284 8 != ~~~n then d
    else d.updFery h fun f => { f with
      laneMap := smSet f.laneMap lane n.toNat
      bipErrors := if b.extractLsb' 276 8 = bip then f.bipErrors else f.bipErrors + 1
      lfsr := 0x7FFFFFFF }) s

/-! ### Taking messages in -/

/-- The first whole message of the received slots, and the slots after it; idle slots are passed over. -/
def feryHead (slots : List (BitVec 256)) : Option (List (BitVec 256) × List (BitVec 256)) :=
  let l := slots.dropWhile fun s => sf s 5 0 == 0
  match l with
  | [] => none
  | s :: _ => match msgLen s with
    | some k => if k ≤ l.length then some (l.take k, l.drop k) else none
    | none => none

/-- Take the next message, if it is of an opcode and `p` accepts its header. -/
def Dev.feryNext (d : Dev) (h : Half) (op : Nat) (p : BitVec 256 → Bool) : Option (List (BitVec 256) × Dev) :=
  let f := (d.half h).fery
  if f.link != .up && f.link != .session then none
  else match feryHead f.rxSlots with
    | some (m, rest) =>
      if sf (m.headD 0) 5 0 == op && p (m.headD 0) then some (m, d.updFery h fun f => { f with rxSlots := rest }) else none
    | none => none

/-- A slot without its TAG. -/
def noTag (s : BitVec 256) : BitVec 256 := (s.setWidth 128).setWidth 256

/-- Take the next message with its TAG checked (R205): a wrong one fails the session, which then gives no message. -/
def Dev.feryRecv (d : Dev) (h : Half) (op : Nat) (p : BitVec 256 → Bool) : Option (List (BitVec 256)) × Dev :=
  match d.feryNext h op p with
  | none => (none, d)
  | some (m, d) =>
    match (d.half h).fery.keys with
    | none => (none, d)
    | some k =>
      let hd := m.headD 0
      let seq := (d.half h).fery.rxSeq
      let d := d.updFery h fun f => { f with rxSeq := f.rxSeq + 1 }
      if msgTag k.macRx seq (noTag hd :: m.tail) = hd.extractLsb' 128 128 then (some m, d) else (none, d.loseTwin h (some 1))

/-- A meaning that takes a message with a TAG: `k` has its header and data slots. -/
def onFery (h : Half) (op : Nat) (p : BitVec 256 → Bool) (k : Dev → BitVec 256 → List (BitVec 256) → Dev) (s : State) : Out :=
  onDevT (fun d => match d.feryRecv h op p with
    | (some (hd :: ds), d) => k d hd ds
    | (_, d) => d) s

/-- `LINK_CTL` (R197): codewords up to ACK_CSEQ leave the replay buffer; NAK has the later ones sent again. -/
def execLinkCtl (h : Half) (s : State) : Out :=
  onDevT (fun d => match d.feryNext h 0x3F fun _ => true with
    | some (m, d) =>
      let hd := m.headD 0
      let ack := BitVec.ofNat 12 (sf hd 19 8)
      let d := d.updFery h fun f =>
        match f.replay.findIdx? fun c => c == ack with
        | some i => { f with replay := f.replay.drop (i + 1) }
        | none => f
      (if hd.getLsbD 20 then d.sat h pgFERY 0x0C0 else d).pump h
    | none => d) s

/-! ### Session set-up and rekey -/

/-- The end's identity: private scalar, where the ROM has derived it (R284). -/
def Dev.identity (d : Dev) (h : Half) : Nat := ((d.half h).boot.keys.map (·.identity)).getD 1

/-- The hash of an identity key: the first 256 bits of SHA-512 of its point, byte b at bits [8b+7:8b] (R204). -/
def idHash (q : Nat × Nat) : Nat := fromLe ((sha512 (encPoint q)).take 32)

/-- `FERY.PEER_HASH`. -/
def Dev.peerHash (d : Dev) (h : Half) : Nat :=
  (List.range 8).foldl (fun v n => v + (d.reg h pgFERY (0x070 + 4 * n)).toNat * 2 ^ (32 * n)) 0

/-- What a `REKEY` signs: EPOCH, the ephemeral key and the nonce (R204). -/
def rekeySigned (epoch : Nat) (pub nonce : List Nat) : List Nat := toLe 8 epoch ++ pub ++ nonce

/-- Send this end's INITIAL or OFFER: a fresh ephemeral key and nonce, signed; INITIAL carries the certificate chain. -/
def Dev.rekeySend (d : Dev) (h : Half) (kind epoch : Nat) : Dev :=
  let a := d.free 528
  let b := a.2.free 256
  let c := b.2.free 528
  let priv := toScalar a.1.toNat
  let pub := encPoint (ecPub priv)
  let nonce := toLe 32 b.1.toNat
  let sig := ecdsaSign (d.identity h) (toScalar c.1.toNat) (rekeySigned epoch pub nonce)
  let chain := if kind = 0 then d.flash.cert0.map (·.toNat) else []
  let bytes (l : List Nat) : List Byte := l.map (BitVec.ofNat 8)
  let r : RekeyState := { epoch := epoch, priv := priv, pub := bytes pub, nonce := bytes nonce }
  (c.2.updFery h fun f => { f with rekey := some r }).feryCtl h (.rekey kind epoch (bytes (pub ++ nonce ++ chain ++ sig)))

/-- Bytes of a DER element. -/
def derSize (b : List Nat) : Nat :=
  let l := b.getD 1 0
  if l < 128 then 2 + l else 2 + (l - 128) + fromBe ((b.drop 2).take (l - 128))

/-- Bytes of a chain of three certificates (R285). -/
def chainSize (b : List Nat) : Nat :=
  let x := derSize b
  let y := x + derSize (b.drop x)
  y + derSize (b.drop y)

/-- The session's four keys from the shared secret (R204). -/
def sessionKeys (z : List Nat) (epoch own peer : Nat) (ownNonce peerNonce : List Nat) : SessKeys :=
  let low := decide (own < peer)
  let salt := if low then ownNonce ++ peerNonce else peerNonce ++ ownNonce
  let hs := if low then toLe 32 own ++ toLe 32 peer else toLe 32 peer ++ toLe 32 own
  let o := hkdf salt z ([0x46, 0x45] ++ toLe 8 epoch ++ hs) 128
  let key (i : Nat) : BitVec 256 := BitVec.ofNat 256 (fromLe ((o.drop (32 * i)).take 32))
  if low then { macTx := key 0, macRx := key 1, wrapTx := key 2, wrapRx := key 3 }
  else { macTx := key 1, macRx := key 0, wrapTx := key 3, wrapRx := key 2 }

/-- The keys of a rekey from the peer's ephemeral key and nonce. -/
def Dev.deriveKeys (d : Dev) (h : Half) (r : RekeyState) (peerId : Nat × Nat) (pub nonce : List Nat) : Option SessKeys :=
  match decPoint pub with
  | none => none
  | some q => (ecdh r.priv q).map fun z =>
    sessionKeys z r.epoch (idHash (ecPub (d.identity h))) (idHash peerId) (r.nonce.map (·.toNat)) nonce

/-- The bytes of data slots. -/
def dataBytes (ds : List (BitVec 256)) : List Nat := ds.flatMap slotBytes

/-- This half's `HEARTBEAT` (R199). -/
def Dev.heartbeat (d : Dev) (h : Half) : CtlMsg :=
  let f := (d.half h).fery
  let ok (k : Half) : Bool := !(d.mgmtLost k) && (k == h || d.fordUp h)
  .heartbeat (d.half h).sail.current d.solo d.split (f.srcOn || f.rcvOn) (ok .west) (ok .east && !d.single)
    (d.reg64 h pgFERY 0x058) (d.reg64 h pgFERY 0x060) (d.reg64 h pgFERY 0x090)

/-- `REKEY_INITIAL` (R204): chain, hash and signature are checked, and the session's keys take effect. -/
def execRekeyInitial (h : Half) (s : State) : Out :=
  onDevT (fun d => match d.feryNext h 0x0A fun s => sf s 7 6 == 0 with
    | none => d
    | some (m, d) =>
      match (d.half h).fery.rekey with
      | none => d
      | some r =>
        let b := dataBytes m.tail
        let pub := b.take 133
        let nonce := (b.drop 133).take 32
        let n := chainSize (b.drop 165)
        let chain := ((b.drop 165).take n).map (BitVec.ofNat 8)
        let id := Config.certLeafKey chain
        if !(Config.certOk chain) || 4096 < n then d.setupFail h 3
        else if d.peerHash h = 0 || idHash id != d.peerHash h then d.setupFail h 4
        else if !(ecdsaOk id (sha512 (rekeySigned 0 pub nonce)) ((b.drop (165 + n)).take 132)) then d.setupFail h 5
        else match d.deriveKeys h r id pub nonce with
          | none => d.setupFail h 5
          | some k =>
            let d := d.updFery h fun f => { f with
              keys := some k, rekey := none, epoch := 0, txSeq := 0, rxSeq := 0
              peerKey := some ((encPoint id).map (BitVec.ofNat 8)) }
            d.feryCtl h (d.heartbeat h)) s

/-- The end sends a sailing stream, and so closes a SWITCH can follow. -/
def FeryHalf.streams (f : FeryHalf) : Bool := feryMirroring f

/-- Start a rekey: this end's offer (R206 step 1). -/
def Dev.rekeyStart (d : Dev) (h : Half) : Dev :=
  let f := (d.half h).fery
  if f.link != .session || f.rekey.isSome then d else d.rekeySend h 1 (f.epoch + 1)

/-- `REKEY_OFFER` (R206): this end offers too, and derives the new keys. An end that sends no stream, and so no close,
switches at once (DEDUCED, notes/assumptions/28.md). -/
def execRekeyOffer (h : Half) (s : State) : Out :=
  onFery h 0x0A (fun s => sf s 7 6 == 1) (fun d hd ds =>
    let b := dataBytes ds
    let pub := b.take 133
    let nonce := (b.drop 133).take 32
    let d := d.rekeyStart h
    match (d.half h).fery.rekey, (d.half h).fery.peerKey.bind fun k => decPoint (k.map (·.toNat)) with
    | some r, some id =>
      if !(ecdsaOk id (sha512 (rekeySigned (sf hd 71 8) pub nonce)) ((b.drop 165).take 132)) || sf hd 71 8 != r.epoch then
        d.loseTwin h (some 5)
      else match d.deriveKeys h r id pub nonce with
        | none => d.loseTwin h (some 5)
        | some k =>
          let d := d.updFery h fun f => { f with rekey := some { r with peerSeen := true, newKeys := some k } }
          if ((d.half h).fery).streams then d else (d.updFery h ferySwitch).rekeyDone h
    | _, _ => d) s

/-- `REKEY_SWITCH` (R206 step 4): the receiver changes keys. -/
def execRekeySwitch (h : Half) (s : State) : Out :=
  onFery h 0x0A (fun s => sf s 7 6 == 2) (fun d _ _ =>
    (d.updFery h fun f => match f.rekey.bind (·.newKeys), f.keys with
      | some n, some k => { f with
          keys := some { k with macRx := n.macRx, wrapRx := n.wrapRx }
          rxSeq := 0
          rekey := f.rekey.map fun r => { r with switchSeen := true } }
      | _, _ => f).rekeyDone h) s

/-- `REKEY_SEQUENCE_DUE` (R206): a rekey starts at 2^40, or at the multiple of 2^32 after one that ran out of time; past the
limit the twin is lost. -/
def execRekeySequenceDue (h : Half) (s : State) : Out :=
  onDevT (fun d =>
    let f := (d.half h).fery
    if 2 ^ 48 - 2 ^ 32 ≤ f.txSeq then d.loseTwin h (some 6)
    else if f.rekeyAt ≤ f.txSeq then d.rekeyStart h
    else d) s

/-- `REKEY_TIMEOUT` (R206): a rekey of more than 100 ms is started again at the next multiple of 2^32 messages. -/
def execRekeyTimeout (h : Half) (s : State) : Out :=
  onDevT (fun d => d.updFery h fun f =>
    if f.rekey.isSome && f.keys.isSome then { f with rekey := none, rekeyAt := (f.txSeq / 2 ^ 32 + 1) * 2 ^ 32 } else f) s

/-! ### Training (R193, R409) -/

/-- Lanes a `LANES` code asks for. -/
def lanesOf (c : Nat) : Nat := if c % 2 = 0 then 16 else 8

/-- Begin to train a half's lanes, where the link is enabled. -/
def Dev.feryTrain (d : Dev) (h : Half) : Dev :=
  if d.fld h pgFERY 0x040 0 0 = 0 then d.updFery h fun f => { f with link := .off, lanesUp := 0 }
  else d.updFery h fun f => { f with link := .training, retryDue := false }

/-- `FERRY_LANE_TRAINING_DONE` (R193, R409): `lanes` trained. A lane missing leaves the link down until the retry. -/
def execFerryLaneTrainingDone (h : Half) (lanes : Nat) (s : State) : Out :=
  onDevT (fun d =>
    let f := (d.half h).fery
    if f.link != .training && f.link != .retraining then d
    else
      let c := d.fld h pgFERY 0x040 9 8
      if lanes = lanesOf c then
        let d := d.updFery h fun f => { f.dropSession with
          link := .up, lanesUp := lanes, halfRate := decide (2 ≤ c), retryDue := false }
        (d.raise h pgFERY .ferryUp).rekeySend h 0 0
      else d.updFery h fun f => { f with link := .lost, lanesUp := min lanes 16, retryDue := true }) s

/-- `FERRY_RETRY_TIMER` (R409): training, or set-up on a trained link, is tried again. -/
def execFerryRetryTimer (h : Half) (s : State) : Out :=
  onDevT (fun d =>
    let f := (d.half h).fery
    if !f.retryDue || d.fld h pgFERY 0x040 0 0 = 0 then d
    else if f.link = .up then (d.updFery h fun f => { f with retryDue := false }).rekeySend h 0 0
    else d.feryTrain h) s

/-- A commit of `FERY.CFG.EN` (R222): 0 idles the lanes and leaves the device solo, 1 trains them. -/
def Dev.feryEn (d : Dev) (h : Half) : Dev :=
  let f := (d.half h).fery
  if d.fld h pgFERY 0x040 0 0 = 0 then
    let d := if f.link = .session then d.loseTwin h none else d
    d.updFery h fun f => { f.dropSession with link := .off, lanesUp := 0, retryDue := false }
  else if f.link = .off then d.feryTrain h
  else d

/-! ### Generations and the start of a resync -/

/-- `EV_STATE.WRITE_REFUSED` of the LDs with capacity in a half (R77, R214). -/
def Dev.refuseWrites (d : Dev) (h : Half) (on : Bool) : Dev :=
  ((d.allLds.filter fun e => d.ldIn e.1 e.2 h).foldl (fun d e => d.updLd e.1 e.2 fun x => { x with writeRefused := on }) d).note

/-- The device owns a range under the session's mode. -/
def Dev.ownsRange (d : Dev) (h : Half) : Bool := [1, 3, 4].contains (d.half h).fery.eff.mode

/-- Tiles a half owns under the session's mode, from and to (R210); a range that returns is walked whole by its old owner
(R215). -/
def Dev.ownRange (d : Dev) (h : Half) : Nat × Nat :=
  let f := (d.half h).fery
  let n := (d.half h).tier.backed
  let b := min n (f.eff.boundary * 4096)
  if f.handback = 2 then (0, n)
  else match f.eff.mode with
    | 1 => (0, n)
    | 3 => (0, b)
    | 4 => (b, n)
    | _ => (0, 0)

/-- Tiles a half mirrors, or takes back from a peer that has been promoted. -/
def Dev.mirRange (d : Dev) (h : Half) : Nat × Nat :=
  let f := (d.half h).fery
  let n := (d.half h).tier.backed
  let b := min n (f.eff.boundary * 4096)
  if f.fenced || f.handback = 1 then (0, n)
  else match f.eff.mode with
    | 2 => (0, n)
    | 3 => (b, n)
    | 4 => (0, b)
    | _ => (0, 0)

/-- A tile written after sailing S: (LAST_SAILING − S) mod 2^28 in 1 to 2^27 − 1 (R216). -/
def newerThan (e : ManfEntry) (s : Nat) : Bool :=
  let k := (e.lastSailing.toNat + 2 ^ 28 - s % 2 ^ 28) % 2 ^ 28
  decide (1 ≤ k) && decide (k ≤ 2 ^ 27 - 1)

/-- One slot's current state as `KEY_EVENT`s of a half, the current phase first (R216). -/
def Dev.keySnapshot (d : Dev) (h : Half) (n : Nat) : Dev :=
  let k := d.kslot h n
  let ev (op : Nat) (ph : Bool) : StreamMsg := .keyEvent op (BitVec.ofNat 10 n) ph k.gen (if op = 0 then k.words ph else [])
  let load (d : Dev) (ph : Bool) : Dev := if (if ph then k.loadedB else k.loadedA) then d.feryStream h (ev 0 ph) else d
  match k.state with
  | .active | .sweeping => load (load d k.cur) (!k.cur)
  | .retired => d.feryStream h (ev 2 false)
  | .empty | .erasing => d.feryStream h (ev 1 false)

/-- Start, or resume, a resync of a half as its source (R216). -/
def Dev.resyncStart (d : Dev) (h : Half) : Dev :=
  let f := (d.half h).fery
  if f.link != .session || !f.paired || !(d.ownsRange h) || (f.srcOn && !f.stopSending) || f.fenced || f.genConflict then d
  else
    let cur := (d.half h).sail.current
    let s0 := if f.peerMirGen < d.reg64 h pgFERY 0x058 then d.reg64 h pgFERY 0x068 else f.peerApplied
    let again := f.srcOn && decide (cur < f.srcS + 2 ^ 27)
    let sv := if again then f.srcS else s0
    let full := if again then f.srcFull else f.srcOn || f.neverSynced || decide (s0 + 2 ^ 27 ≤ cur)
    let pos := if again then d.reg64 h pgFERY 0x0A8 else 0
    let d := d.updFery h fun f => { f with
      srcOn := true, srcFull := full, srcS := sv, srcPos := pos, srcWalked := false, srcEnd := none, streamWait := []
      stopSending := false, accSlots := [], accFirst := none, accLines := 0, accMsgs := 0 }
    let d := ((d.setReg64 h pgFERY 0x0A0 sv).setReg64 h pgFERY 0x0A8 pos).setReg64 h pgFERY 0x0F0 0
    let d := d.feryCtl h (.resyncBegin sv full)
    let d := ((List.range 1024).filter d.ownsSlot).foldl (fun d n => d.keySnapshot h n) d
    let d := d.raise h pgFERY .resyncStart
    d.allLds.foldl (fun d e => if (d.ldc e.1 e.2).sanitizeTwin then d.updLd e.1 e.2 fun x => { x with sanitizeTwin := false } else d) d

/-- AUTO_RESYNC (R222). -/
def Dev.autoResync (d : Dev) (h : Half) : Bool := d.fld h pgFERY 0x040 11 11 == 1

/-- Start the resyncs that a returned session calls for, in every half whose session stands (R211, R60). -/
def Dev.resyncAll (d : Dev) : Dev :=
  d.eachHalf fun d k => if (d.half k).fery.synced || !(d.autoResync k) then d else d.resyncStart k

/-- Compare generations with the peer's (R214; DESIGN CHOICE, notes/assumptions/29.md). -/
def Dev.genCompare (d : Dev) (h : Half) : Dev :=
  let f := (d.half h).fery
  let own := d.reg64 h pgFERY 0x058
  let mir := d.reg64 h pgFERY 0x060
  if !(d.ownsRange h) || f.handback != 0 then d
  else if own < f.peerOwnGen && (f.peerMode == 1 && f.eff.mode == 1 || mir < f.peerOwnGen) then
    if f.fenced then d
    else
      let d := d.updFery h fun f => { f with fenced := true, stopSending := true, stream := [], srcOn := false }
      (d.raise h pgFERY .fenced).refuseWrites h true
  else if f.peerMode = 1 && f.eff.mode = 1 && own = f.peerOwnGen then
    if f.genConflict then d
    else
      let d := d.updFery h fun f => { f with genConflict := true, stopSending := true, stream := [], srcOn := false }
      (d.raise h pgFERY .genConflict).refuseWrites h true
  else if f.peerMirGen < own && d.autoResync h then d.resyncStart h
  else d

/-- `HEARTBEAT_TIMER` (R199). -/
def execHeartbeatTimer (h : Half) (s : State) : Out :=
  onDevT (fun d => if (d.half h).fery.keys.isSome then d.feryCtl h (d.heartbeat h) else d) s

/-- `HEARTBEAT` (R199, R214): the peer's state is taken over; the first one lets the session be accepted. -/
def execHeartbeat (h : Half) (s : State) : Out :=
  onFery h 0x09 (fun _ => true) (fun d hd ds =>
    let x := ds.headD 0
    let was := (d.half h).fery.peerMgmtW || (d.half h).fery.peerMgmtE || !(d.half h).fery.paired
    let d := d.updFery h fun f => { f with
      paired := true
      peerCurrent := sf hd 71 8, peerSplit := hd.getLsbD 73
      peerMgmtW := hd.getLsbD 75, peerMgmtE := hd.getLsbD 76
      peerOwnGen := sf x 63 0, peerMirGen := sf x 127 64, peerApplied := sf x 191 128 }
    let d := if was && !(hd.getLsbD 75) && !(hd.getLsbD 76) then d.raise h pgFERY .peerMgmtLost else d
    if (d.half h).fery.link = .session then d.genCompare h else d) s

/-- The two modes are complementary (R210). -/
def modesFit (a b : Nat) : Bool := (a == 1 && b == 2) || (a == 2 && b == 1) || (a == 3 && b == 4) || (a == 4 && b == 3)

/-- The mirroring device backs every tile it must mirror (R210): `n` and `m` the tiles this end and the far end back. -/
def backsEnough (mode boundary n m : Nat) : Bool :=
  match mode with
  | 1 => decide (n ≤ m)
  | 2 => decide (m ≤ n)
  | 3 => decide (min n (boundary * 4096) ≤ m) && (decide (m ≤ boundary * 4096) || decide (m ≤ n))
  | 4 => decide (min m (boundary * 4096) ≤ n) && (decide (n ≤ boundary * 4096) || decide (n ≤ m))
  | _ => false

/-- `SESSION_UP` (R210, R211, R409): the heartbeats have been exchanged. The operands are what the far end is configured to:
MODE, `BOUNDARY`, `SLOT_SPLIT`, `LANES`, whether it is an FSC-9418-C, and the tiles it backs; no message carries them
(DESIGN CHOICE, notes/assumptions/29.md). Two ends of which one has been promoted past the other go on to R214 in place of a refusal. -/
def execSessionUp (h : Half) (mode boundary split lanes : Nat) (single : Bool) (backed : Nat) (s : State) : Out :=
  onDevT (fun d =>
    let f := (d.half h).fery
    if f.link != .up || f.keys.isNone || !f.paired then d
    else
      let e : PairSet := {
        mode := d.pairMode, slotSplit := d.slotSplit, boundary := d.fld h pgFERY 0x048 22 0
        stageGib := d.fld h pgFERY 0x04C 4 0, lanes := d.fld h pgFERY 0x040 9 8 }
      let own := d.reg64 h pgFERY 0x058
      let mir := d.reg64 h pgFERY 0x060
      let owner (m : Nat) : Bool := [1, 3, 4].contains m
      let promoted := owner e.mode && owner mode && (decide (max own mir < f.peerOwnGen) || decide (max f.peerOwnGen f.peerMirGen < own)
        || (e.mode == 1 && mode == 1 && own == f.peerOwnGen))
      let same := boundary == e.boundary && split == e.slotSplit && lanes == e.lanes && single == d.single
      if !same || !(modesFit e.mode mode || promoted) || (modesFit e.mode mode && !(backsEnough e.mode boundary (d.half h).tier.backed backed)) then
        d.setupFail h 8
      else
        let hb := if e.mode ≤ 2 || mode ≤ 2 then 0 else if f.eff.mode = 2 then 1 else if f.eff.mode = 1 then 2 else f.handback
        let d := d.updFery h fun f => { f with
          link := .session, eff := e, peerMode := mode, retryDue := false, handback := hb, stopTaking := false
          creditsDue := e.stageGib * 16384, freed := 0 }
        let d := if hb = 1 then d.refuseWrites h true else d
        let d := ((d.pump h).raise h pgFERY .sessionUp).genCompare h
        let d := d.resyncAll
        Dev.recallPump h (d.half h).fery.recallWait d) s

/-! ### `TWIN_LOST`, `RETRAIN` and the other commands of `FERY.CMD` -/

/-- `TWIN_LOST` (R211): no `HEARTBEAT` came for `LOST_MS`. -/
def execTwinLost (h : Half) (s : State) : Out :=
  onDevT (fun d => if (d.half h).fery.keys.isSome then d.loseTwin h (some 9) else d) s

/-- `FERY.CMD_STATUS`. -/
def Dev.feryStatus (d : Dev) (h : Half) (st : Nat) : Dev := d.setReg h pgFERY 0x0CC (st * 2 ^ 28)

/-- `PROMOTE` begins (R213 step 1): staged sailings that are not verified in both halves are discarded; verified ones are
finished by `SAILING_APPLY_DONE`. Both halves act. -/
def Dev.promoteCmd (d : Dev) (h : Half) : Dev :=
  let arg := d.reg64 h pgFERY 0x0D0
  let g := arg % 2 ^ 63
  let force := arg.testBit 63
  if !([2, 3, 4].contains d.pairMode) then d.feryStatus h 3
  else if d.halves.any fun k => decide (g ≤ d.reg64 k pgFERY 0x058) || decide (g ≤ d.reg64 k pgFERY 0x060) then d.feryStatus h 4
  else if !force && d.halves.any (fun k => (d.half k).fery.rcvOn) then d.feryStatus h 3
  else
    let d := d.eachHalf fun d k => d.updFery k fun f => { f with
      stopTaking := true
      staged := f.staged.filter fun x => x.verified && (x.split || d.single || decide (x.s ≤ d.reg64 k pgFERY 0x098))
      promoting := some (g, force) }
    d.feryStatus h 1

/-- A write of `FERY.CMD` (R222): none where it is refused, because a command is BUSY or OP is none of 1 to 4. -/
def Dev.feryCmd (h : Half) (v : Nat) (d : Dev) : Option Dev :=
  if d.fld h pgFERY 0x0CC 31 28 = 1 then none
  else match v % 16 with
    | 1 => some (d.promoteCmd h)
    | 2 => some (if (d.half h).fery.link = .session then (d.feryStatus h 1).rekeyStart h else d.feryStatus h 3)
    | 3 =>
      let f := (d.half h).fery
      some (if f.link != .session || !f.paired || !(d.ownsRange h) || (f.srcOn && !f.stopSending) || f.fenced || f.genConflict then
          d.feryStatus h 3
        else (d.resyncStart h).feryStatus h 2)
    | 4 =>
      some (if d.fld h pgFERY 0x040 0 0 = 0 then d.feryStatus h 3
        else (d.updFery h fun f => { f with retraining := true }).feryStatus h 1)
    | _ => none

/-- A `FERY` command of an opcode. -/
def feryWrite (org : Origin) (h : Half) (op : Nat) (s : State) : Out :=
  onDevT (fun d => d.command org h pgFERY 0x0C8 op (Dev.feryCmd h op)) s

/-- `PROMOTE` (R213), `FERY_REKEY` (R206), `RESYNC_START` (R216) and `FERY_RETRAIN` (R212): the opcode is written to `FERY.CMD`;
`CMD_ARG` holds the generation of a `PROMOTE`. -/
def execPromote (org : Origin) (h : Half) (s : State) : Out := feryWrite org h 1 s
def execFeryRekey (org : Origin) (h : Half) (s : State) : Out := feryWrite org h 2 s
def execResyncStart (org : Origin) (h : Half) (s : State) : Out := feryWrite org h 3 s
def execFeryRetrain (org : Origin) (h : Half) (s : State) : Out := feryWrite org h 4 s

/-- `FERY_RETRAIN_ACK_WAIT` (R212 step 3): the acknowledgements have come or 1 ms has passed; the session ends and the lanes
retrain. -/
def execFeryRetrainAckWait (h : Half) (s : State) : Out :=
  onDevT (fun d => if !((d.half h).fery.retraining) then d else (d.loseTwin h (some 7)).feryStatus h 2) s

/-- A half takes ownership (R213 step 3): G and S are recorded, MODE becomes 1, and the tiles that a forced promotion leaves behind
the resync cursor are reported. -/
def Dev.promoteHalf (d : Dev) (k : Half) : Dev :=
  match (d.half k).fery.promoting with
  | none => d
  | some (g, force) =>
    let part := force && (d.half k).fery.rcvOn
    let pos := (d.half k).fery.rcvPos
    let r := d.mirRange k
    let d := (d.setReg64 k pgFERY 0x058 g).setReg64 k pgFERY 0x068 (d.reg64 k pgFERY 0x090)
    let d := if part then
        ((d.half k).tier.manf.filter fun e => decide (max pos r.1 ≤ e.1) && decide (e.1 < r.2)).foldl (fun d e =>
          d.eventAt .generalMedia (lineOf k e.1 0) 4) d
      else d
    let mode := (d.reg k pgFERY 0x044).toNat
    let d := d.hwKept (pageIsland pgFERY) k pgFERY 0x044 (putBits mode 2 0 1)
    let d := d.updFery k fun f => { f with
      promoting := none, rcvOn := false, fenced := false, eff := { f.eff with mode := 1 }
      stopSending := true, stream := [], synced := false }
    let d := if d.fld k pgFERY 0x0CC 31 28 = 1 then d.feryStatus k 2 else d
    (d.raise k pgFERY .promoted).refuseWrites k false

/-- The promoted device opens its sailings above every sailing that either device has met, and is solo (R213 step 4). -/
def Dev.promoteOpen (d : Dev) : Dev :=
  let top := (d.halves.map fun k => max (max (d.reg64 k pgFERY 0x090) (d.half k).fery.peerCurrent)
    (max (d.half k).sail.current (d.half k).sail.reservation)).foldl max 0
  let d := d.eachHalf fun d k =>
    let d := if (d.half k).sail.reservation ≤ top + 1 then
        d.upd k fun x => { x with sail := { x.sail with reservation := top + 2 ^ 27 } }
      else d
    (d.boundary k (top + 1)).openBoth k (top + 1)
  let d := { d with solo := false }
  d.goSolo.repairReview

/-- `PROMOTE_RECORD_DONE` (R213 steps 3 and 4): once every verified sailing has been applied in every half. -/
def execPromoteRecordDone (s : State) : Out :=
  onDevT (fun d =>
    if d.halves.all fun k => (d.half k).fery.promoting.isSome && (d.half k).fery.staged.isEmpty then
      (d.eachHalf Dev.promoteHalf).promoteOpen
    else d) s

end Sys2Proof.Machine
end

