-- ==== Sys2Proof/Machine/Fery.lean ====
section
/-! DEFINITION. Chapter 08, what the messages do: staging and applying a peer's sailings (R207 to R209), acknowledgements (R40,
R60), key events on the twin (R260, R275), tile streams and the resync's walks (R216 to R218), and line recall (R219, R220). -/

namespace Sys2Proof.Machine

/-! ### Staging (R207) -/

/-- The sailing being staged: the last one not closed, else a new one. -/
def stageTop (l : List Staged) : Staged × List Staged :=
  match l.getLast? with
  | some x => if x.closed then ({ s := x.s + 1 }, l) else (x, l.dropLast)
  | none => ({ s := 0 }, [])

/-- Stage a stream message. Before the pairing is accepted, and after the half has stopped taking the stream, it is dropped
(R210, R213). -/
def Dev.stage (d : Dev) (h : Half) (f : Staged → Staged) : Dev :=
  d.updFery h fun x =>
    if !x.paired || x.stopTaking then x
    else
      let p := stageTop x.staged
      { x with staged := p.2 ++ [f p.1] }

/-- The lines of a `MIRROR_LINES` message (R200). -/
def mirrorLines (m : List (BitVec 256)) : List MLine :=
  let hd := m.headD 0
  (List.range (sf hd 7 6 + 1)).map fun j =>
    let o := 48 + 51 * j
    { line := sf hd (o + 45) o
      w := BitVec.ofNat 4 (sf hd (o + 49) (o + 46))
      poison := hd.getLsbD (o + 50)
      data := BitVec.ofNat 512 ((m.getD (2 * j + 1) 0).toNat + 2 ^ 256 * (m.getD (2 * j + 2) 0).toNat) }

/-- `MIRROR_LINES` (R200, R207): the message has no TAG; its close covers it. -/
def execMirrorLines (h : Half) (s : State) : Out :=
  onDevT (fun d => match d.feryNext h 0x01 fun _ => true with
    | none => d
    | some (m, d) =>
      let seq := (d.half h).fery.rxSeq
      let hd := m.headD 0
      let ls := mirrorLines m
      let msg : StreamMsg := .mirror (BitVec.ofNat 18 (sf hd 25 8)) (BitVec.ofNat 7 (sf hd 32 26)) (BitVec.ofNat 10 (sf hd 42 33))
        (hd.getLsbD 43) ls
      (d.updFery h fun f => { f with rxSeq := f.rxSeq + 1 }).stage h fun x =>
        { x with
          msgs := x.msgs ++ [msg]
          slots := x.slots ++ m
          firstSeq := some (x.firstSeq.getD seq)
          nMsgs := x.nMsgs + 1
          nLines := x.nLines + ls.length }) s

/-- Discard the staged sailings from `n` on, stop taking the stream, and answer the sailing with a status other than APPLIED
(R208). -/
def Dev.rejectSailing (d : Dev) (h : Half) (n st : Nat) : Dev :=
  (d.updFery h fun f => { f with staged := f.staged.filter fun x => x.verified && decide (x.s < n), stopTaking := true }).feryCtl h
    (.sailingAck n st)

/-- `SAILING_CLOSE` (R202, R208 steps 1 and 2): LINES, MSGS and the sailing CMAC are checked, and the sibling half is told. -/
def execSailingClose (h : Half) (s : State) : Out :=
  onDevT (fun d => match d.feryNext h 0x02 fun _ => true with
    | none => d
    | some (m, d) =>
      let f := (d.half h).fery
      let hd := m.headD 0
      let n := sf hd 71 8
      let d := d.updFery h fun f => { f with rxSeq := f.rxSeq + 1 }
      if !f.paired || f.stopTaking then d
      else
        let p := stageTop f.staged
        let x := p.1
        let key := (f.keys.map (·.macRx)).getD 0
        if x.nLines != sf hd 95 72 || x.nMsgs != sf hd 119 96 then d.rejectSailing h n 1
        else if sailingCmac key x.slots (noTag hd) (x.firstSeq.getD f.rxSeq) f.rxSeq != hd.extractLsb' 128 128 then
          d.rejectSailing h n 2
        else
          let y : Staged := { x with s := n, closed := true, verified := true, split := hd.getLsbD 6, slots := [] }
          let d := d.updFery h fun f => { f with staged := p.2 ++ [y] }
          if d.single || y.split then d else d.fordSend h (.sibVerified n)) s

/-- `SIB_VERIFIED` (R208): a hardware write, not journaled. -/
def execSibVerified (h : Half) (s : State) : Out :=
  onDevT (fun d => match d.fordTake h 0 FordMsg.isSibVerified with
    | some (.sibVerified n, d) => d.setReg64 h pgFERY 0x098 (max n (d.reg64 h pgFERY 0x098))
    | _ => d) s

/-! ### Applying (R208, R209) -/

/-- How the apply of a message comes out. -/
inductive Applied where
  | ok | wait | bad
  deriving DecidableEq, Repr

/-- The tile can take an applied write, with a frame: a BLANK or LOST one takes one now (R104, R209). -/
def Dev.applyFrame (d : Dev) (h : Half) (t : Nat) (ld slot : Nat) (ph : Bool) (stamp : BitVec 18) : Option Dev :=
  let e := d.tile h t
  if d.inTransition h t && e.state != .sinking || (d.half h).fery.capturing.contains t then none
  else match e.state with
    | .nandOnly | .rising | .dark => none
    | .dramDirty | .sinking => some d
    | .dramClean => if d.newDirtyHeld h then none else some d
    | .blank | .lost =>
      if d.newDirtyHeld h then none
      else
        let p := d.takeFrame h ld .freeFmt .freeRaw false
        match p.1 with
        | none => none
        | some f =>
          let d := if (p.2.frame h f).state = .freeRaw then p.2.formatFrame h f else p.2
          let d := d.setFrame h f { state := .used, tile := t }
          let m := { e with
            state := .dramDirty, frame := BitVec.ofNat 27 f, ld := BitVec.ofNat 7 ld, slot := BitVec.ofNat 10 slot, phase := ph
            nand := BitVec.ofNat 36 noNand, age := (d.half h).tier.ageClock }
          let d := d.setTile h t m
          if e.state = .lost then
            let tg := mkTags stamp 0 m.slot ph true 0xF true m.ld
            some ((List.range 1024).foldl (fun d j => d.putFrameLine h f j (encodeLine (lineOf h t j) 0 tg)) d)
          else some d

/-- A write by the twin apply makes the tile dirty in a sailing; a sink that runs is told. -/
def Dev.applyDirty (d : Dev) (h : Half) (t n : Nat) (slot : BitVec 10) (ph : Bool) : Dev :=
  let e := d.tile h t
  (d.setTile h t { e with
    state := if e.state = .sinking then .sinking else .dramDirty
    lastSailing := BitVec.ofNat 28 n, slot := slot, phase := ph, age := (d.half h).tier.ageClock }).upd h fun x =>
      { x with tier := { x.tier with sinks := x.tier.sinks.map fun k => if k.tile = t then { k with touched := true } else k } }

/-- Write a frame line from the twin or a recall: the cached copy, dirty or clean, and a buffered write-back go without
being written (R191). -/
def Dev.overwrite (d : Dev) (h : Half) (line : Nat) (l : SLine) : Dev :=
  let f := (d.tile h (lineTile line)).frame.toNat
  let d := match d.landFind h line with
    | some (k, _) => d.landDrop h k
    | none => d
  let d := d.upd h fun x => { x with land := { x.land with buf := x.land.buf.filter fun b => b.line != line } }
  (d.putFrameLine h f (lineJ line) l).wrap64 h (pgMEMC (frameSub f / 2)) 0x080

/-- Apply one mirrored line of sailing n with the tags of R207. -/
def Dev.applyLine (d : Dev) (h : Half) (n : Nat) (stamp : BitVec 18) (ld : BitVec 7) (slot : BitVec 10) (ph : Bool) (m : MLine) :
    Option Dev :=
  let t := lineTile m.line
  (d.applyFrame h t ld.toNat slot.toNat ph stamp).map fun d =>
    let d := d.overwrite h m.line (encodeLine m.line m.data (mkTags stamp 0 slot ph m.poison m.w true ld))
    let d := (d.applyDirty h t n slot ph).repairEnd h m.line (some 3)
    if m.poison then d.poisonList h m.line 1 else d.poisonDrop h m.line

/-- Apply a key event in one half (R260, R275, R276). A load waits for a walk of the slot. -/
def Dev.applyKey (d : Dev) (h : Half) (op n : Nat) (ph : Bool) (gen : BitVec 32) (ws : List (BitVec 64)) : Applied × Dev :=
  let k := d.kslot h n
  if k.state = .retired then (.ok, d)
  else if op = 0 then
    if k.walking then (.wait, d)
    else
      let key (i : Nat) : BitVec 256 := keyOfWords ((ws.drop (4 * i)).take 4)
      let d := d.updSlot h n fun k => { k.load ph (key 0) (key 1) (key 2) with gen := gen }
      (.ok, (d.recordHalf h n).raise h pgKEYS .keyLoaded n)
  else if op = 1 then
    if k.state = .empty && k.gen == gen then (.ok, d)
    else
      let d := (d.eraseBegin n [h]).eraseRecord n [h]
      (.ok, (d.updSlot h n fun k => { k.zero with state := .empty, walking := true, owner := none, gen := gen }).raise h pgKEYS .slotErased n)
  else
    let d := (d.eraseBegin n [h]).eraseRecord n [h]
    (.ok, (d.updSlot h n fun k => { k.zero with state := .retired, owner := none }).raise h pgKEYS .slotRetired n)

/-- Apply a DATA stream: the tile goes into a frame as promotion step 7 writes it, with FROM_TWIN = 1 (R218). -/
def Dev.applyTile (d : Dev) (h : Half) (i : TileImg) (n : Nat) : Applied × Dev :=
  let t := i.tile % 2 ^ 35
  let e := d.tile h t
  if !(d.imgOk h i) then (.bad, d)
  else if e.state = .rising || d.inTransition h t && e.state != .sinking || (d.half h).fery.capturing.contains t then (.wait, d)
  else if d.newDirtyHeld h && e.state != .dramDirty && e.state != .sinking then (.wait, d)
  else
    let p : Option Nat × Dev :=
      if TileStateResident e.state then (some e.frame.toNat, d) else d.takeFrame h i.ld.toNat .freeRaw .freeFmt false
    match p.1 with
    | none => (.wait, d)
    | some f =>
      let d := (p.2.landDropTile h t).setFrame h f { state := .used, tile := t }
      let d := d.writeTile h f t i true
      let d := d.setTile h t { e with
        state := if e.state = .sinking then .sinking else .dramDirty
        frame := BitVec.ofNat 27 f, ld := i.ld, slot := i.slot, phase := i.phase }
      let d := (d.applyDirty h t n i.slot i.phase).upd h fun x => { x with tier := { x.tier with
        rehome := x.tier.rehome.filter fun u => u != t } }
      let d := ((d.half h).ecc.repairs.filter fun r => lineTile r.line == t).foldl (fun d r => d.repairEnd h r.line (some 3)) d
      (.ok, d.wrap64 h pgFERY 0x0F0)

/-- Apply a BLANK or LOST stream (R218). -/
def Dev.applyMark (d : Dev) (h : Half) (lost : Bool) (t : Nat) : Applied × Dev :=
  let e := d.tile h t
  if d.inTransition h t then (.wait, d)
  else
    let d := d.wrap64 h pgFERY 0x0F0
    if !lost then (.ok, d.releaseTile h t)
    else if e.state = .blank then
      (.ok, (d.setTile h t { e with state := .lost, nand := BitVec.ofNat 36 noNand, frame := 0 }).raise h pgMANF .tileLost (tileNo h t))
    else (.ok, d.loseTile h t)

/-- Apply one staged message of sailing n. -/
def Dev.applyMsg (h : Half) (n : Nat) (a : Applied × Dev) (m : StreamMsg) : Applied × Dev :=
  match a.1 with
  | .ok =>
    match m with
    | .mirror st ld sl ph ls =>
      ls.foldl (fun a l => match a.1 with
        | .ok => match a.2.applyLine h n st ld sl ph l with
          | some d => (.ok, d)
          | none => (.wait, a.2)
        | _ => a) a
    | .keyEvent op sl ph gen ws => a.2.applyKey h op sl.toNat ph gen ws
    | .tileData i => a.2.applyTile h i i.sailing
    | .tileMark lost t _ => a.2.applyMark h lost (t % 2 ^ 35)
    | .close _ => a
  | _ => a

/-- Tiles that the lines of a sailing go to. -/
def Staged.tiles (x : Staged) : List Nat :=
  x.msgs.flatMap fun m => match m with
    | .mirror _ _ _ _ ls => ls.map fun l => lineTile l.line
    | _ => []

/-- MODE becomes TWIN once the fenced device has been brought up to date in every half (R213). -/
def Dev.fencedDone (d : Dev) : Dev :=
  if d.halves.any fun k => (d.half k).fery.rcvOn then d
  else d.eachHalf fun d k =>
    if (d.half k).fery.fenced then
      let d := d.hwKept (pageIsland pgFERY) k pgFERY 0x044 (putBits (d.reg k pgFERY 0x044).toNat 2 0 2)
      d.updFery k fun f => { f with fenced := false, eff := { f.eff with mode := 2 } }
    else d

/-- Leave solo once every half's twin is up to date (R60). -/
def Dev.resyncCheck (d : Dev) : Dev :=
  if d.halves.all fun k => (d.half k).fery.synced then d.exitSolo else d

/-- The receiver's resync ends with the apply of END (R215, R216). -/
def Dev.rcvFinish (d : Dev) (h : Half) : Dev :=
  let f := (d.half h).fery
  let d := (d.updFery h fun f => { f with rcvOn := false, rcvEnd := none }).raise h pgFERY .resyncDone
  let d := (d.upd h fun x => { x with pwr := { x.pwr with refusing := false, unsaved := [] } }).note
  let d := if f.handback = 1 then
      let d := d.setReg64 h pgFERY 0x058 (f.peerOwnGen + 1)
      let d := d.updFery h fun f => { f with handback := 0, stopSending := false, synced := true }
      (d.refuseWrites h false).resyncCheck
    else d
  d.fencedDone

/-- The sailing may be applied: verified in both halves, or in this one where the sibling takes no part (R208). -/
def Dev.canApply (d : Dev) (h : Half) (x : Staged) : Bool :=
  x.verified && (x.split || d.single || decide (x.s ≤ d.reg64 h pgFERY 0x098))

/-- `SAILING_APPLY_DONE` (R208 steps 3 and 4, R209): the oldest sailing verified in both halves is applied, whole or, while one of
its messages must wait, not at all; its NAND_ONLY tiles are promoted. `bad` is a staged line that the ring's DRAM has lost. -/
def execSailingApplyDone (h : Half) (bad : Bool) (s : State) : Out :=
  onDevT (fun d => match (d.half h).fery.staged with
    | [] => d
    | x :: rest =>
      if !(d.canApply h x) then d
      else if bad then d.rejectSailing h x.s 3
      else
        let r := x.msgs.foldl (Dev.applyMsg h x.s) (.ok, d)
        match r.1 with
        | .bad => d.rejectSailing h x.s 2
        | .wait => x.tiles.foldl (fun d t => d.promote h t) d
        | .ok =>
          let n := lsum (x.msgs.map StreamMsg.count) + 1 + (d.half h).fery.freed
          let d := r.2.updFery h fun f => { f with
            staged := rest, freed := n % 2048, creditsDue := f.creditsDue + n / 2048 }
          let d := (d.setReg64 h pgFERY 0x090 x.s).feryCtl h (.sailingAck x.s 0)
          match (d.half h).fery.rcvEnd with
          | some e => if e ≤ x.s then d.rcvFinish h else d
          | none => d) s

/-! ### Acknowledgements on the source (R40, R60, R211) -/

/-- `SAILING_ACK` (R40): APPLIED acknowledges every sailing up to the one it names; another status declares the twin lost. -/
def execSailingAck (h : Half) (s : State) : Out :=
  onFery h 0x03 (fun _ => true) (fun d hd _ =>
    let n := sf hd 71 8
    if sf hd 75 72 != 0 then (d.raise h pgFERY .sailingRejected n).loseTwin h none
    else
      let d := (d.upd h fun x => { x with sail := { x.sail with
        ledger := x.sail.ledger.map fun e => if e.s ≤ n then { e with acked := true } else e } }).seal
      let f := (d.half h).fery
      match f.srcEnd with
      | some e =>
        if f.srcOn && decide (e ≤ n) then
          let d := d.updFery h fun f => { f with srcOn := false, srcEnd := none, synced := true, neverSynced := false, handback := 0 }
          let d := if f.handback = 2 then d.setReg64 h pgFERY 0x060 (d.reg64 h pgFERY 0x058 + 1) else d
          ((d.raise h pgFERY .resyncDone).resyncCheck).seal
        else d
      | none => d) s

/-! ### Key events on the twin -/

/-- Stage a key event; the wrapped keys are opened under the direction's wrap key (R199, R258). -/
def Dev.keyMsg (d : Dev) (h : Half) (hd : BitVec 256) (ds : List (BitVec 256)) : Dev :=
  let op := sf hd 7 6
  let n := sf hd 17 8
  let ph := hd.getLsbD 18
  let gen := BitVec.ofNat 32 (sf hd 50 19)
  if op = 0 then
    let key := ((d.half h).fery.keys.map (·.wrapRx)).getD 0
    let u := kwUnwrap key.toNat ((pieces 8 13 ((dataBytes ds).take 104)).map fromBe)
    if u.1 = wrapIv gen n ph then
      d.stage h fun x => { x with msgs := x.msgs ++ [.keyEvent 0 (BitVec.ofNat 10 n) ph gen (u.2.map (BitVec.ofNat 64))] }
    else d.loseTwin h (some 1)
  else d.stage h fun x => { x with msgs := x.msgs ++ [.keyEvent op (BitVec.ofNat 10 n) ph gen []] }

/-- `KEY_EVENT_LOAD_PHASE`, `KEY_EVENT_ERASE`, `KEY_EVENT_RETIRE` (R260, R275, R276): staged at their position in the stream, and
applied there by `SAILING_APPLY_DONE` (`Dev.applyKey`). -/
def execKeyEventLoadPhase (h : Half) (s : State) : Out := onFery h 0x0B (fun s => sf s 7 6 == 0) (fun d hd ds => d.keyMsg h hd ds) s
def execKeyEventErase (h : Half) (s : State) : Out := onFery h 0x0B (fun s => sf s 7 6 == 1) (fun d hd ds => d.keyMsg h hd ds) s
def execKeyEventRetire (h : Half) (s : State) : Out := onFery h 0x0B (fun s => sf s 7 6 == 2) (fun d hd ds => d.keyMsg h hd ds) s

/-! ### Tile streams (R217, R218) -/

/-- `TILE_STREAM` (R218): staged at its position in the sailing, and applied there by `SAILING_APPLY_DONE`. -/
def execTileStream (h : Half) (s : State) : Out :=
  onFery h 0x06 (fun s => sf s 7 6 != 3) (fun d hd ds =>
    let t := sf hd 43 8
    let n := sf hd 107 44
    let line (k : Nat) : LineData := BitVec.ofNat 512 ((ds.getD (2 * k) 0).toNat + 2 ^ 256 * (ds.getD (2 * k + 1) 0).toNat)
    let m : StreamMsg :=
      if sf hd 7 6 = 0 then .tileData (trailerOf (dataBytes (ds.drop 2048)) ((List.range 1024).map line))
      else .tileMark (sf hd 7 6 == 2) t n
    d.stage h fun x => { x with msgs := x.msgs ++ [m] }) s

/-- Slots that wait in the transmit queue. -/
def FeryHalf.queued (f : FeryHalf) : Nat := lsum (f.stream.map StreamMsg.count)

/-- Stream a tile by its state, or start its capture (R217); none while it must wait: a tile in RISING or DARK, or a transmit
queue of 64 KiB or more. -/
def Dev.streamTile (d : Dev) (h : Half) (t : Nat) : Option Dev :=
  let f := (d.half h).fery
  let e := d.tile h t
  let mark (lost : Bool) : Option Dev :=
    some ((d.feryStream h (.tileMark lost (tileNo h t) (d.half h).sail.current)).wrap64 h pgFERY 0x0F0)
  if !(feryMirroring f) then none
  else match e.state with
    | .blank => mark false
    | .lost => mark true
    | .nandOnly => match d.nandImg h e.nand.toNat with
      | some i => some ((d.feryStream h (.tileData i)).wrap64 h pgFERY 0x0F0)
      | none => mark true
    | .rising | .dark => none
    | .dramClean | .dramDirty | .sinking =>
      if f.capturing.contains t then some d
      else if 2048 ≤ f.queued || (((d.half h).tier.copying.map (·.tile)) == some t) then none
      else some (d.updFery h fun f => { f with capturing := f.capturing ++ [t] })

/-- `TILE_STREAM_PULL` (R216, R220): the source streams the tile, at once or as soon as it can. -/
def execTileStreamPull (h : Half) (s : State) : Out :=
  onFery h 0x06 (fun s => sf s 7 6 == 3) (fun d hd _ =>
    let t := sf hd 43 8 % 2 ^ 35
    match d.streamTile h t with
    | some d => d
    | none => d.updFery h fun f => { f with streamWait := if f.streamWait.contains t then f.streamWait else f.streamWait ++ [t] }) s

/-- `TILE_CAPTURE_DONE` (R217): the oldest capture ends and enters the stream; writes held for it go on. -/
def execTileCaptureDone (h : Half) (s : State) : Out :=
  onDevT (fun d => match (d.half h).fery.capturing with
    | [] => d
    | t :: ts =>
      let d := d.updFery h fun f => { f with capturing := ts }
      let e := d.tile h t
      if !(TileStateResident e.state) then d.updFery h fun f => { f with streamWait := f.streamWait ++ [t] }
      else
        let p := d.tileImage h t
        (p.2.feryStream h (.tileData p.1)).wrap64 h pgFERY 0x0F0) s

/-! ### The resync's walks (R216) -/

/-- The next tile of a walk from a position: every tile of the range where FULL, else the next one newer than S. -/
def Dev.walkNext (d : Dev) (h : Half) (r : Nat × Nat) (pos s : Nat) (full : Bool) : Option Nat :=
  let p := max pos r.1
  if full then (if p < r.2 then some p else none)
  else ((d.half h).tier.manf.find? fun e => decide (p ≤ e.1) && decide (e.1 < r.2) && newerThan e.2 s).map (·.1)

/-- Keep the cursor in the system region, every 4,096 tiles. -/
def Dev.keepCursor (d : Dev) (h : Half) (old new : Nat) : Dev :=
  if old / 4096 = new / 4096 then d else d.setReg64 h pgFERY 0x0A8 (new / 4096 * 4096)

/-- The source's walk: a tile that waits and can now be streamed, else the walk's next tile. -/
def Dev.srcWalk (d : Dev) (h : Half) : Dev :=
  let f := (d.half h).fery
  let waiting := f.streamWait.findSome? fun t => (d.streamTile h t).map fun d => (t, d)
  match waiting with
  | some (t, d) => d.updFery h fun f => { f with streamWait := f.streamWait.erase t }
  | none =>
    if !f.srcOn || f.stopSending || f.srcWalked then d
    else match d.walkNext h (d.ownRange h) f.srcPos f.srcS f.srcFull with
      | none => d.updFery h fun f => { f with srcWalked := true }
      | some t =>
        let d := (d.updFery h fun f => { f with srcPos := t + 1 }).keepCursor h f.srcPos (t + 1)
        (d.streamTile h t).getD (d.updFery h fun f => { f with streamWait := f.streamWait ++ [t] })

/-- The receiver's walk: a PULL for the next tile that is newer than S here. With FULL there is none. -/
def Dev.rcvWalk (d : Dev) (h : Half) : Dev :=
  let f := (d.half h).fery
  if !f.rcvOn || f.rcvWalked then d
  else
    let r := d.mirRange h
    match if f.rcvFull then none else d.walkNext h r f.rcvPos f.rcvS false with
    | none => d.updFery h fun f => { f with rcvWalked := true, rcvPos := r.2 }
    | some t =>
      ((d.updFery h fun f => { f with rcvPos := t + 1 }).keepCursor h f.rcvPos (t + 1)).feryCtl h (.pull (tileNo h t))

/-- `RESYNC_WALK_TILE` (R216, R217). -/
def execResyncWalkTile (h : Half) (s : State) : Out := onDevT (fun d => (d.srcWalk h).rcvWalk h) s

/-- `RESYNC_BEGIN` (R216): staged sailings are discarded, and the receiver's walk starts, or resumes at its cursor with the same
S. -/
def execResyncBegin (h : Half) (s : State) : Out :=
  onFery h 0x07 (fun _ => true) (fun d hd _ =>
    let n := sf hd 71 8
    let full := hd.getLsbD 72
    let f := (d.half h).fery
    let again := f.rcvOn && f.rcvS = n && f.rcvFull = full
    let pos := if again then d.reg64 h pgFERY 0x0A8 else 0
    let d := d.updFery h fun f => { f with
      staged := [], stopTaking := false, freed := 0
      rcvOn := true, rcvFull := full, rcvS := n, rcvPos := pos, rcvWalked := false, rcvEnd := none }
    let d := ((d.setReg64 h pgFERY 0x0A0 n).setReg64 h pgFERY 0x0A8 pos).setReg64 h pgFERY 0x0F0 0
    d.raise h pgFERY .resyncStart) s

/-- `RESYNC_WALK_DONE` (R216): both walks and all pulls are done; the source sends `RESYNC_END` with its current sailing. -/
def execResyncWalkDone (h : Half) (s : State) : Out :=
  onDevT (fun d =>
    let f := (d.half h).fery
    if f.srcOn && !f.stopSending && f.srcWalked && f.streamWait.isEmpty && f.capturing.isEmpty && f.srcEnd.isNone then
      let n := (d.half h).sail.current
      (d.updFery h fun f => { f with srcEnd := some n }).feryCtl h (.resyncEnd n)
    else d) s

/-- `RESYNC_END` (R216): the receiver adopts the source's generation; its resync ends when END has been applied. -/
def execResyncEnd (h : Half) (s : State) : Out :=
  onFery h 0x08 (fun _ => true) (fun d hd _ =>
    let f := (d.half h).fery
    if !f.rcvOn then d
    else
      let n := sf hd 71 8
      let gen := if f.handback = 1 then f.peerOwnGen + 1 else f.peerOwnGen
      let d := if f.handback = 1 then d else d.setReg64 h pgFERY 0x060 gen
      let d := d.updFery h fun f => { f with rcvEnd := some n }
      if n ≤ d.reg64 h pgFERY 0x090 then d.rcvFinish h else d) s

/-! ### Line recall (R219) -/

/-- `LINE_RECALL_REQ` (R219): the twin answers by its applied sailing and the tile's state; a NAND_ONLY tile is promoted first. -/
def execLineRecallReq (h : Half) (s : State) : Out :=
  onFery h 0x04 (fun _ => true) (fun d hd _ =>
    let line := sf hd 53 8
    let rtag := sf hd 69 54
    let want := BitVec.ofNat 28 (sf hd 97 70)
    let t := lineTile line
    let e := d.tile h t
    let f := (d.half h).fery
    let no (st : Nat) : Dev := d.feryCtl h (.recallResp rtag st 0 0 false 0 false 0 0)
    if 2 ^ 27 ≤ (BitVec.ofNat 28 (d.reg64 h pgFERY 0x090) - want).toNat then no 2
    else if e.state = .blank || e.state = .lost || (f.rcvOn && !f.rcvWalked && decide (f.rcvPos ≤ t)) then no 1
    else d.readGo h { src := .recall rtag, ld := e.ld.toNat, line := line, kind := .read }) s

/-- The recalled line of a repair goes to its frame, or to its Landing slot, which stays dirty (R142, R189). -/
def Dev.repairAnswer (d : Dev) (h : Half) (line : Nat) (l : SLine) (tg : Tags) : Dev :=
  match d.repairOf h line with
  | none => d
  | some r =>
    if r.landing then
      match d.landFind h line, (decodeLine line true none l).data with
      | some (k, e), c =>
        match d.lineCrypt h false line tg c with
        | some p =>
          let m := d.tile h (lineTile line)
          let d := d.landPut h k { e with dirty := true, wbPending := false, line := encodeLine line (maskW tg.w p) tg }
          let d := if m.state = .dramClean then d.setTile h (lineTile line) { m with state := .dramDirty }
            else d.upd h fun x => { x with tier := { x.tier with
              sinks := x.tier.sinks.map fun q => if q.tile = lineTile line then { q with touched := true } else q } }
          d.repairEnd h line (some 2)
        | none => d.repairFail h r
      | none, _ => d.repairEnd h line (some 2)
    else ((d.overwrite h line l).poisonDrop h line).repairEnd h line (some 2)

/-- A recall for reads of a DARK tile answers the reads held for that line (R329). -/
def Dev.darkAnswer (d : Dev) (h : Half) (line : Nat) (ans : Option (LineData × Tags)) : Dev :=
  if (d.tile h (lineTile line)).state != .dark then d
  else
    let go := (d.half h).tier.held.filter fun r => r.line == line && !r.isWrite
    let d := d.upd h fun x => { x with tier := { x.tier with held := x.tier.held.filter fun r => !(r.line == line && !r.isWrite) } }
    go.foldl (fun d r => match ans with
      | some (c, t) => d.readOut h r t (if t.w = 0 then some 0 else (d.lineCrypt h false line t c).map (maskW t.w))
      | none => d.respondPoison h r (d.half h).sail.current) d

/-- `LINE_RECALL_RESP` (R219): RTAG finds the request; an OK line is written with FROM_TWIN = 1, any other status ends in poison
(R142 step 3). -/
def execLineRecallResp (h : Half) (s : State) : Out :=
  onFery h 0x05 (fun _ => true) (fun d hd ds =>
    match (d.half h).fery.recalls.find? fun q => q.rtag == sf hd 23 8 with
    | none => d
    | some q =>
      let d := d.updFery h fun f => { f with recalls := f.recalls.erase q }
      let ok := sf hd 27 24 == 0
      let tg := mkTags (BitVec.ofNat 18 (sf hd 45 28)) 0 (BitVec.ofNat 10 (sf hd 60 51)) (hd.getLsbD 61) false
        (BitVec.ofNat 4 (sf hd 49 46)) true (BitVec.ofNat 7 (sf hd 68 62))
      let c : LineData := BitVec.ofNat 512 ((ds.getD 0 0).toNat + 2 ^ 256 * (ds.getD 1 0).toNat)
      let l := encodeLine q.line c tg
      let d := match q.why with
        | .repair | .landing =>
          if ok then d.repairAnswer h q.line l tg
          else match d.repairOf h q.line with
            | some r => d.repairFail h r
            | none => d
        | .promo | .rehome => d.promoAnswer h q.line (if ok then some l else none)
        | .read => d.darkAnswer h q.line (if ok then some (c, tg) else none)
      Dev.recallPump h (d.half h).fery.recallWait d) s

end Sys2Proof.Machine
end

