-- ==== Sys2Proof/Machine/Flash.lean ====
section
/-! DEFINITION. Chapter 09: the descriptor queues of the flash islands (R228 to R237), completions and failures (R231, R243,
R248), erased checks (R244), `FORMAT` (R242, R245, R247), and the diagnostic slot (R250).
Log entries of notes/assumptions that bear on this file: DESIGN CHOICE 26, DESIGN CHOICE 30. -/

namespace Sys2Proof.Machine

/-- Island of a LUN. -/
def lunIsle (l : Nat) : Nat := l / 2048

/-- A flash island, and a change of it. -/
def Dev.isle (d : Dev) (h : Half) (i : Nat) : FlashIsle := (d.half h).flash.isles.getD i {}
def Dev.updIsle (d : Dev) (h : Half) (i : Nat) (f : FlashIsle → FlashIsle) : Dev :=
  d.updFlash h fun x => { x with isles := lmod x.isles i f }

/-- Change the operations that a test picks. -/
def Dev.updOps (d : Dev) (h : Half) (i : Nat) (p : NandOp → Bool) (f : NandOp → NandOp) : Dev :=
  d.updIsle h i fun x => { x with ops := x.ops.map fun o => if p o then f o else o }

/-! ### Arbitration (R233, R234) -/

/-- The operation is of the read class (R230). -/
def NandOp.isRead (o : NandOp) : Bool := o.op == 1 || o.op == 4 || o.op == 6 || o.op == 7

/-- Rank of an operation in its LUN's queue. -/
def NandOp.rank (o : NandOp) : Nat :=
  if o.ring = 1 then 0 else if o.isRead then (if o.ring = 0 then 1 else 2) else if o.op = 3 then 4 else 3

/-- The first operation of least rank. -/
def bestOp (l : List NandOp) : Option NandOp :=
  l.foldl (fun b o => match b with
    | none => some o
    | some c => if o.rank < c.rank then some o else some c) none

/-- The array operation that a LUN runs. -/
def Dev.runningOp (d : Dev) (h : Half) (l : Nat) : Option NandOp :=
  (d.isle h (lunIsle l)).ops.find? fun o => nandLun o.addr == l && o.issued && !o.suspended

/-- Issue an operation: an erase moves its stripe to ERASING. -/
def Dev.issueOp (d : Dev) (h : Half) (o : NandOp) : Dev :=
  let d := d.updOps h (nandIsle o.addr) (· == o) fun o => { o with issued := true }
  if o.op = 3 ∧ !o.oneBlock then d.setStripe h (nandStripe o.addr) { d.stripe h (nandStripe o.addr) with state := .erasing, ready := false, checked := 0 }
  else d

/-- Serve a LUN that runs nothing: queued reads first while an operation is suspended, then its resume; else the queue by
rank, an erase only while no program is queued. Last Ferry resumes no erase (R249). -/
def Dev.serveLun (d : Dev) (h : Half) (l : Nat) : Dev :=
  let f := (d.half h).flash
  if (d.runningOp h l).isSome || !(d.lunOk h l) then d
  else
    let here := (d.isle h (lunIsle l)).ops.filter fun o => nandLun o.addr == l
    let wait := here.filter fun o => !o.issued
    let lf := (d.half h).pwr.state == .lastFerry
    let go (l : List NandOp) : Dev := match bestOp l with
      | some o => d.issueOp h o
      | none => d
    match here.find? fun o => o.suspended && !(lf && o.op == 3) with
    | some s =>
      if (wait.filter (·.isRead)).isEmpty then d.updOps h (lunIsle l) (· == s) fun o => { o with suspended := false }
      else go (wait.filter (·.isRead))
    | none =>
      let prog := wait.any (fun o => o.op == 2 || o.op == 5) || (d.half h).tier.sinks.any fun s => nandLun s.loc == l
      go (wait.filter fun o => !(o.op == 3 && (prog || (lf && o.ring != 1) || here.any (·.suspended) || f.formatting)))

/-! ### Completions (R231, R232) -/

/-- Entries of a ring pair (R228); the diagnostic slot has one. -/
def ringSize (r : Nat) : Nat := if r = 1 then 256 else if r = 3 then 1 else 1024

/-- The completion record as bits (R231). -/
def NandComp.word (c : NandComp) : Nat :=
  min c.elapsed 0xFFFFFFFF * 2 ^ 96 + min c.suspends 0xFFFF * 2 ^ 80 + min c.bits 0xFFFF * 2 ^ 64 + c.iter % 256 * 2 ^ 56
    + c.nandSr % 256 * 2 ^ 48 + c.retry % 16 * 2 ^ 44 + c.status % 256 * 2 ^ 32 + c.tag % 65536 * 2 ^ 16 + c.op % 256 * 2 ^ 8
    + bnum c.phase

/-- Write a completion record: into its ring, or for the diagnostic slot into `DIAG_COMP`, with `DIAG_DONE`. -/
def Dev.completeOp (d : Dev) (h : Half) (i : Nat) (o : NandOp) (st : Nat) (r : NandEnd) : Dev :=
  let x := d.isle h i
  let pos := x.ringPos.getD o.ring 0
  let c : NandComp := {
    ring := o.ring, op := o.op, tag := o.tag, status := st, retry := r.level, nandSr := r.sr, iter := r.iter, bits := r.bits
    suspends := o.suspends, elapsed := r.elapsed, phase := decide (pos / ringSize o.ring % 2 = 0) }
  let d := d.updIsle h i fun x => { x with ops := x.ops.erase o }
  if o.ring = 3 then
    let d := (List.range 4).foldl (fun d n => d.setReg h (pgFLSH i) (0x0C4 + 4 * n) ({ c with phase := true }.word / 2 ^ (32 * n) % 2 ^ 32)) d
    ((d.updIsle h i fun x => { x with diagBusy := false }).setFld h (pgFLSH i) 0x0C0 5 4 2).raise h (pgFLSH i) .diagDone
  else
    d.updIsle h i fun x => { x with
      ringPos := x.ringPos.set o.ring (pos + 1)
      comps := c :: (x.comps.filter (·.ring != o.ring) ++ (x.comps.filter (·.ring == o.ring)).take (ringSize o.ring - 1)) }

/-- An end that tells nothing. -/
def NandEnd.none : NandEnd :=
  { fail := false, plane := 0, bad := 0, iter := 0, bits := 0, level := 0, sr := 0, elapsed := 0, flips := [] }

/-! ### Submission (R228 to R230, R237) -/

/-- The fields of a descriptor (R229). -/
def opOfDesc (ring n : Nat) (img : TileImg) (bytes : List Byte) : NandOp :=
  { ring := ring, op := n % 256, tag := bitsOf n 31 16, addr := bitsOf n 67 32, plane := bitsOf n 69 68
    slc := n.testBit 8, oneBlock := n.testBit 11, buf := bitsOf n 79 72, retry := n.testBit 9
    iterMax := bitsOf n 127 120, feat := bitsOf n 87 80, fval := BitVec.ofNat 32 (bitsOf n 119 88), img := img, bytes := bytes }

/-- A malformed descriptor for an island (R230). `sys` is the system-region writer. -/
def Dev.descBad (d : Dev) (h : Half) (i n : Nat) (o : NandOp) (sys : Bool) : Bool :=
  let s := d.stripe h (nandStripe o.addr)
  n / 2 ^ 128 != 0 || bitsOf n 71 70 != 0 || bitsOf n 15 12 != 0 || o.op == 0 || decide (7 < o.op) || decide (64 ≤ o.buf)
    || nandIsle o.addr != i || nandStripe o.addr % 4096 == 4095 || decide ((d.half h).flash.pages ≤ nandPage o.addr)
    || (o.op == 3 && [StripeState.opened, .full, .system, .reserve].contains s.state && !(o.ring == 1 || sys))

/-- A block of the stripe is marked bad in the block map (R241). -/
def Dev.stripeBad (d : Dev) (h : Half) (k : Nat) : Bool :=
  (List.range 4).any fun p => let b := smGetD (d.half h).flash.blocks (k * 4 + p) 0; b == 1 || b == 2

/-- What an open-stripe check answers (R237): refused with a status, or the device with the next page advanced. A program
of page 0 opens an ERASED stripe for its submitter, or for Last Ferry a checked stripe of the reserve, where its LUN has
no open stripe for that use. -/
def Dev.programCheck (d : Dev) (h : Half) (o : NandOp) : Nat ⊕ Dev :=
  let k := nandStripe o.addr
  let p := nandPage o.addr
  let s := d.stripe h k
  let use := if o.ring = 0 then 0 else if o.ring = 1 then 3 else 1
  let can := (d.openOn h (stripeLun k) use).isNone
    && (if use = 3 then s.state == .reserve && s.ready else s.state == .erased)
  let d := if p = 0 ∧ s.slc = o.slc ∧ can then d.poolNote (d.openStripe h k use { s with ready := false, failed := none }) h else d
  let s := d.stripe h k
  if !(s.state == .opened || s.state == .system) || s.slc != o.slc || decide (p < s.nextPage) then .inl 3
  else if s.nextPage < p then .inl 4
  else .inr (if s.state = .system then d.setStripe h k { s with nextPage := p + 1 } else (d.takePage h k s).2)

/-- Submit a descriptor to a ring of an island (R228). A full ring takes none. -/
def Dev.submit (d : Dev) (h : Half) (i ring n : Nat) (sys : Bool) (img : TileImg) (bytes : List Byte) : Dev :=
  let o := opOfDesc ring n img bytes
  let x := d.isle h i
  if 4 ≤ i || 3 < ring || decide (ringSize ring ≤ (x.ops.filter (·.ring == ring)).length) then d
  else
    let d := d.updIsle h i fun x => { x with ops := x.ops ++ [o] }
    let no (d : Dev) (st : Nat) : Dev := d.completeOp h i o st NandEnd.none
    if d.descBad h i n o sys then no d 10
    else if d.stripeBad h (nandStripe o.addr) && o.op ≤ 5 && !(o.op == 4 && n.testBit 10) then no d 5
    else if (d.half h).flash.failedLuns.contains (nandLun o.addr) || (x.chans.getD (nandChan o.addr % 8) 0) == 3 then no d 9
    else if o.op = 2 ∨ o.op = 5 then
      match d.programCheck h o with
      | .inl st => no d st
      | .inr d => d.serveLun h (nandLun o.addr)
    else d.serveLun h (nandLun o.addr)

/-- A descriptor whose OP is that of its row. -/
def descOf (op : Nat) (desc : BitVec 512) : Nat := desc.toNat / 256 * 256 + op

/-- A submission to rings 0 to 2. -/
def submitOn (h : Half) (i ring op : Nat) (desc : BitVec 512) (sys : Bool) (img : TileImg) (bytes : List Byte) (s : State) : Out :=
  onDevT (fun d => if 3 ≤ ring then d else d.submit h i ring (descOf op desc) sys img bytes) s

/-- `READ_TILE`, `READ_PAGE_RAW`, `SET_FEATURE` and `GET_PARAM` (R230): a descriptor is submitted to a ring of an island. -/
def execReadTile (h : Half) (isle ring : Nat) (desc : BitVec 512) (s : State) : Out := submitOn h isle ring 1 desc false {} [] s
def execReadPageRaw (h : Half) (isle ring : Nat) (desc : BitVec 512) (s : State) : Out := submitOn h isle ring 4 desc false {} [] s
def execSetFeature (h : Half) (isle ring : Nat) (desc : BitVec 512) (s : State) : Out := submitOn h isle ring 6 desc false {} [] s
def execGetParam (h : Half) (isle ring : Nat) (desc : BitVec 512) (s : State) : Out := submitOn h isle ring 7 desc false {} [] s

/-- `PROGRAM_TILE` (R230): the tile that BUF holds goes with the descriptor; with none given, the tile last read into BUF. -/
def execProgramTile (h : Half) (isle ring : Nat) (desc : BitVec 512) (img : Option TileImg) (s : State) : Out :=
  submitOn h isle ring 2 desc false
    (img.getD (smGetD (s.dev.isle h isle).bufs (bitsOf desc.toNat 79 72) {})) [] s

/-- `PROGRAM_PAGE_RAW` (R230): 18,256 bytes for one plane's page. -/
def execProgramPageRaw (h : Half) (isle ring : Nat) (desc : BitVec 512) (bytes : List Byte) (s : State) : Out :=
  submitOn h isle ring 5 desc false {} ((bytes ++ List.replicate 18256 0).take 18256) s

/-- `ERASE_BLOCK` (R230); `sys` marks device firmware's system-region writer. -/
def execEraseBlock (h : Half) (isle ring : Nat) (sys : Bool) (desc : BitVec 512) (s : State) : Out :=
  submitOn h isle ring 3 desc sys {} [] s

/-! ### What an operation leaves -/

/-- The 18,256 bytes of a plane's page of a tile (R226): four codewords of a sector, 16 trailer bytes and the parity. -/
def tilePage (t : TileImg) (q : Nat) : List Byte :=
  (List.range 4).flatMap fun c =>
    let k := 4 * q + c
    let info := (((t.data.drop (64 * k)).take 64).flatMap fun l => leBytes 64 l.toNat)
      ++ (((trailerBytes t).drop (16 * k)).take 16).map (BitVec.ofNat 8)
    info ++ leBytes 452 (Config.ldpcParity info).toNat

/-- A plane's page as it is stored; an erased one reads as ones. -/
def Dev.rawPage (d : Dev) (h : Half) (a p : Nat) : List Byte :=
  match smGet (d.half h).flash.raw (a * 4 + p), d.nandImg h a with
  | some b, _ => b
  | none, some t => tilePage t p
  | none, none => List.replicate 18256 0xFF

/-- Bytes read back with the changes that the medium made. -/
def flipBytes (l : List Byte) (fs : List (Nat × Byte)) : List Byte := fs.foldl (fun l f => l.modify f.1 (· ^^^ f.2)) l

/-- Zero bits of a byte. -/
def zeroBits (b : Byte) : Nat := ((List.range 8).filter fun i => !(b.getLsbD i)).length

/-- A tile with the codewords of a mask replaced by free values (R232: BUF holds the others). -/
def Dev.scramble (d : Dev) (t : TileImg) (bad : BitVec 16) : TileImg × Dev :=
  ((List.range 16).filter fun k => bad.getLsbD k).foldl (fun a k =>
    let r := (List.range 64).foldl (fun (b : List LineData × Dev) j =>
      let w := b.2.free 512
      (b.1.set (64 * k + j) w.1, w.2)) ((a.1.data ++ List.replicate 1024 0).take 1024, a.2)
    let w := r.2.free 128
    let tr := (trailerBytes a.1).take (16 * k) ++ toLe 16 w.1.toNat ++ (trailerBytes a.1).drop (16 * k + 16)
    (trailerOf tr r.1, w.2)) (t, d)

/-- The erased check of a page of a VOUCHED or reserve stripe (R244): eight good pages make it ERASED, a page with too many
zero bits makes it STALE. -/
def Dev.erasedCheck (d : Dev) (h : Half) (a p zeros : Nat) : Dev :=
  let k := nandStripe a
  let s := d.stripe h k
  let last := d.stripePages h s - 1
  if !(s.state == .vouched || (s.state == .reserve && !s.ready)) || !(nandPage a == 0 || nandPage a == last) then d
  else if d.fld h (pgFLSH (nandIsle a)) 0x050 15 0 < zeros then (d.setStripe h k { s with state := .stale, checked := 0 }).lfNote h
  else
    let c := s.checked ||| BitVec.twoPow 8 (p % 4 * 2 + bnum (nandPage a != 0))
    let c := if last = 0 then c ||| BitVec.twoPow 8 (p % 4 * 2 + 1) else c
    if c != 0xFF then d.setStripe h k { s with checked := c }
    else if s.use = 3 then (d.setStripe h k { s with checked := c, ready := true }).lfNote h
    else d.setStripe h k { s with checked := c, state := .erased }

/-- Place the bytes that the diagnostic slot read into the lines of its diagnostic frame (R250). -/
def Dev.diagBytes (d : Dev) (h : Half) (i : Nat) (b : List Byte) : Dev :=
  let f := d.fld h (pgFLSH i) 0x0C0 3 0
  let frame := (d.half h).ecc.diagFrames.getD f 0
  (List.range 286).foldl (fun d j =>
    let x := BitVec.ofNat 512 (ofLe ((b.drop (64 * j)).take 64))
    d.setDiag h (f * 1024 + j) (encodeLine (fmtAddr frame j) x (mkTags 0 0 0 false false 0xF false 0))) d

/-- Keep the bytes that a raw read or `GET_PARAM` returned: in BUF, or in the diagnostic frame. -/
def Dev.keepBytes (d : Dev) (h : Half) (i : Nat) (o : NandOp) (b : List Byte) : Dev :=
  if o.ring = 3 then d.diagBytes h i b
  else d.updIsle h i fun x => { x with rawPages := smSet x.rawPages o.buf b }

/-- A reclaim move ends (R239): NAND_TILE is updated where it still names the copy that was moved; otherwise the new copy is
stale at once. -/
def Dev.moveEnd (d : Dev) (h : Half) (o : NandOp) : Dev :=
  let t := o.img.tile % 2 ^ 35
  let e := d.tile h t
  if o.ring = 2 ∧ o.img.tile / 2 ^ 35 = h.num ∧ e.state != .blank ∧ e.state != .lost ∧ e.nand.toNat != noNand
      ∧ e.nand.toNat != o.addr ∧ d.nandImg h e.nand.toNat = some o.img then
    ((d.nandStale h e.nand.toNat).nandLive h o.addr).setTile h t { e with nand := BitVec.ofNat 36 o.addr }
  else d

/-- A stripe that has been erased (R238): its count rises, and a reserve stripe is ready again. -/
def Dev.erased (d : Dev) (h : Half) (k : Nat) (slc : Bool) : Dev :=
  let s := d.stripe h k
  let st := if s.use = 3 then .reserve else if s.use = 2 then .system else .erased
  let d := d.setStripe h k { erases := min (s.erases + 1) 0xFFFF, seq := s.seq, state := st, slc := slc
                             use := if s.use = 3 then 3 else if s.use = 2 then 2 else 0, ready := s.use == 3 }
  let d := d.upd h fun x => { x with
    tier := { x.tier with nand := x.tier.nand.filter fun e => nandStripe e.1 != k }
    flash := { x.flash with raw := x.flash.raw.filter fun e => nandStripe (e.1 / 4) != k } }
  d.lfNote h

/-- A read that ended uncorrectable (R232, R243): the counter, and a scoresheet entry of unit 10 for the tile whose current
copy it is. -/
def Dev.nandUncorr (d : Dev) (h : Half) (a : Nat) : Dev :=
  let d := d.sat h (pgFLSH (nandIsle a)) 0x100
  match (d.half h).tier.manf.find? fun e => e.2.nand.toNat == a && e.2.state != .blank with
  | some (t, e) => (d.ueFound h 10 (tileNo h t) 0 0 3 (some e.ld.toNat)).2
  | none => d

/-- The end of a running operation (R230 to R232, R243). -/
def Dev.opEnd (d : Dev) (h : Half) (l : Nat) (o : NandOp) (r : NandEnd) : Dev :=
  let i := lunIsle l
  let pg := pgFLSH i
  let a := o.addr
  let fin (d : Dev) (st : Nat) (r : NandEnd) : Dev := d.completeOp h i o st r
  let plain : NandEnd := { r with iter := 0, bits := 0, level := 0 }
  if o.op = 1 then
    let level := if o.retry then min r.level (d.fld h pg 0x048 19 16) else 0
    let img := d.nandImg h a
    let bad := if img.isNone then 0xFFFF else r.bad
    let d := d.wrap64 h pg 0x0E0 (1 + (if bad != 0 && o.retry then d.fld h pg 0x048 19 16 else level))
    let p := d.scramble (img.getD {}) bad
    let d := p.2.updIsle h i fun x => { x with bufs := smSet x.bufs o.buf p.1 }
    let lim := if o.iterMax = 0 then d.fld h pg 0x048 7 0 else o.iterMax
    let it := min r.iter lim
    if bad != 0 then fin (d.nandUncorr h a) 2 { r with bits := bad.toNat, level := 0, iter := it }
    else fin d (if level = 0 ∧ it ≤ d.fld h pg 0x048 15 8 then 0 else 1) { r with level := level, iter := it }
  else if o.op = 2 then
    let d := d.wrap64 h pg 0x0E8
    if r.fail then fin (d.programFail h a (r.plane % 4)) 6 plain
    else fin ((d.putNand h a o.img).moveEnd h o) 0 plain
  else if o.op = 3 then
    let d := d.wrap64 h pg 0x0F0
    if r.fail then fin (d.markBad h (nandStripe a) (if o.oneBlock then o.plane else r.plane % 4)) 7 plain
    else if o.oneBlock then
      fin (d.updFlash h fun x => { x with raw := x.raw.filter fun e => !(nandStripe (e.1 / 4) == nandStripe a && e.1 % 4 == o.plane) }) 0 plain
    else fin (d.erased h (nandStripe a) o.slc) 0 plain
  else if o.op = 4 then
    let d := d.wrap64 h pg 0x0E0
    let b := flipBytes (d.rawPage h a o.plane) r.flips
    let z := lsum (b.map zeroBits)
    fin ((d.keepBytes h i o b).erasedCheck h a o.plane z) 0 { plain with bits := z }
  else if o.op = 5 then
    let d := d.wrap64 h pg 0x0E8
    if r.fail then fin (d.programFail h a o.plane) 6 plain
    else fin (d.updFlash h fun x => { x with raw := smSet x.raw (a * 4 + o.plane) o.bytes }) 0 plain
  else if o.op = 6 then fin (d.updFlash h fun x => { x with features := smPut x.features (l * 256 + o.feat) 0 o.fval }) 0 plain
  else fin (d.keepBytes h i o (Config.paramPage l o.feat)) 0 plain

/-- `NAND_OPERATION_DONE` (R231): the operation that a LUN runs ends. -/
def execNandOperationDone (h : Half) (lun : Nat) (r : NandEnd) (s : State) : Out :=
  onDevT (fun d => match d.runningOp h lun with
    | none => d
    | some o => (d.opEnd h lun o r).serveLun h lun) s

/-- `NAND_SUSPEND_DONE` (R234): a running program or erase stands suspended, and the reads queued for its LUN are served. -/
def execNandSuspendDone (h : Half) (lun : Nat) (s : State) : Out :=
  onDevT (fun d => match d.runningOp h lun with
    | none => d
    | some o =>
      if o.isRead || !((d.isle h (lunIsle lun)).ops.any fun q => nandLun q.addr == lun && q.isRead && !q.issued) then d
      else
        let d := d.updOps h (lunIsle lun) (· == o) fun o => { o with suspended := true, suspends := min (o.suspends + 1) 0xFFFF }
        (d.wrap64 h (pgFLSH (lunIsle lun)) 0x0F8).serveLun h lun) s

/-! ### Failures (R248) -/

/-- Complete the operations of a LUN that a test picks `ABORTED`. -/
def Dev.abortOps (d : Dev) (h : Half) (i : Nat) (p : NandOp → Bool) : Dev :=
  ((d.isle h i).ops.filter p).foldl (fun d o => d.completeOp h i o 9 NandEnd.none) d

/-- A tile whose NAND copy stood on a failed LUN. -/
def Dev.tileOffLun (d : Dev) (h : Half) (t : Nat) : Dev :=
  let e := { d.tile h t with nand := BitVec.ofNat 36 noNand }
  match e.state with
  | .dramClean => d.setTile h t { e with state := .dramDirty }
  | .nandOnly =>
    (d.setTile h t { e with state := .rising, frame := 0 }).upd h fun x => { x with tier := { x.tier with
      promos := x.tier.promos ++ [{ tile := t, frame := none, retried := true, twin := true }] } }
  | .rising =>
    (d.setTile h t e).upd h fun x => { x with tier := { x.tier with
      promos := x.tier.promos.map fun p => if p.tile = t ∧ p.img.isNone then { p with retried := true, twin := true } else p } }
  | .dark =>
    (d.setTile h t e).upd h fun x => { x with tier := { x.tier with
      promos := x.tier.promos.map fun p => if p.tile = t then { p with twin := true } else p } }
  | _ => d.setTile h t e

/-- A LUN fails: its descriptors end `ABORTED`, its copies are gone, its stripes are BAD, and its reserve stripes are replaced
from the erased pool. -/
def Dev.lunFail (d : Dev) (h : Half) (l : Nat) (ev : Bool) : Dev :=
  if (d.half h).flash.failedLuns.contains l || !((d.half h).flash.luns.contains l) then d
  else
    let was := d
    let d := d.updFlash h fun x => { x with failedLuns := l :: x.failedLuns }
    let d := if ev then d.raise h (pgFLSH (lunIsle l)) .dieFailed (l * 2 ^ 23) else d
    let d := d.abortOps h (lunIsle l) fun o => nandLun o.addr == l
    let d := ((d.half h).tier.sinks.filter fun k => nandLun k.loc == l).foldl (fun d k =>
      let d := d.upd h fun x => { x with tier := { x.tier with sinks := x.tier.sinks.erase k } }
      if (d.tile h k.tile).state = .sinking then
        (d.setTile h k.tile { d.tile h k.tile with state := .dramDirty }).afterMove h k.tile
      else d) d
    let lostRes := ((d.reserveStripes h).filter fun e => stripeLun e.1 == l).length
    let d := (List.range (d.half h).flash.stripesPerLun).foldl (fun d b =>
      d.setStripe h (l * 4096 + b) { d.stripe h (l * 4096 + b) with state := .bad, live := 0, ready := false, failed := none }) d
    let ts := ((d.half h).tier.manf.filter fun e => nandLun e.2.nand.toNat == l && e.2.nand.toNat != noNand).map (·.1)
    let d := d.upd h fun x => { x with tier := { x.tier with nand := x.tier.nand.filter fun e => nandLun e.1 != l } }
    let d := ts.foldl (fun d t => d.tileOffLun h t) d
    let d := (((d.half h).flash.stripes.filter fun e => e.2.state == .erased).take lostRes).foldl (fun d e =>
      d.setStripe h e.1 { e.2 with state := .stale, use := 3, ready := false }) d
    (was.poolNote d h).lfNote h

/-- `FLASH_TIMEOUT` (R232, R248): the running operation ends `TIMEOUT`; the third within 1 s fails the LUN. -/
def execFlashTimeout (h : Half) (lun : Nat) (s : State) : Out :=
  onDevT (fun d => match d.runningOp h lun with
    | none => d
    | some o =>
      let pg := pgFLSH (lunIsle lun)
      let d := if o.op = 3 ∧ !o.oneBlock then
          d.setStripe h (nandStripe o.addr) { d.stripe h (nandStripe o.addr) with state := .stale } else d
      let d := ((d.completeOp h (lunIsle lun) o 8 NandEnd.none).sat h pg 0x104).raise h pg .flashTimeout
      let d := d.updFlash h fun x => { x with
        timeouts := (lun, d.uptime) :: x.timeouts.filter fun t => decide (d.uptime < t.2 + 1000000000) }
      if 3 ≤ ((d.half h).flash.timeouts.filter fun t => t.1 == lun).length then d.lunFail h lun true
      else d.serveLun h lun) s

/-- `ERASE_OVERDUE` (R235): reported once for the erase that a LUN runs or holds suspended. -/
def execEraseOverdue (h : Half) (lun : Nat) (s : State) : Out :=
  onDev (fun d => match (d.isle h (lunIsle lun)).ops.find? fun o => nandLun o.addr == lun && o.issued && o.op == 3 && !o.overdue with
    | none => d
    | some o => (d.updOps h (lunIsle lun) (· == o) fun o => { o with overdue := true }).raise h (pgFLSH (lunIsle lun)) .eraseOverdue
        o.addr o.suspends) s

/-! ### Channels (R224) -/

/-- State of a channel (0 to 31), and its change. -/
def Dev.chanState (d : Dev) (h : Half) (c : Nat) : Nat := (d.isle h (c / 8)).chans.getD (c % 8) 0
def Dev.setChan (d : Dev) (h : Half) (c st : Nat) : Dev :=
  (d.updIsle h (c / 8) fun x => { x with chans := x.chans.set (c % 8) st }).gateNote h

/-- LUNs of a channel. -/
def Dev.lunsOf (d : Dev) (h : Half) (c : Nat) : List Nat := (d.half h).flash.luns.filter fun l => l / 256 == c

/-- `FLASH_CHANNEL_RETRAIN` (R224): three failures within 1 s start a retrain. -/
def execFlashChannelRetrain (h : Half) (c : Nat) (s : State) : Out :=
  onDev (fun d => if d.chanState h c = 2 then d.setChan h c 1 else d) s

/-- `FLASH_CHANNEL_TRAIN_DONE` (R223, R224): a channel is UP, or FAILED with its LUNs. `cause` is 0 for training and 1 for a
part that misses a requirement (DESIGN CHOICE, notes/assumptions/30.md). -/
def execFlashChannelTrainDone (h : Half) (c : Nat) (ok : Bool) (cause : Nat) (s : State) : Out :=
  onDevT (fun d =>
    if d.chanState h c != 1 then d
    else if ok then (d.lunsOf h c).foldl (fun d l => d.serveLun h l) (d.setChan h c 2)
    else
      let d := (d.setChan h c 3).raise h (pgFLSH (c / 8)) .channelFailed c (cause % 2)
      (d.lunsOf h c).foldl (fun d l => d.lunFail h l false) d) s

/-! ### `FORMAT` (R242, R245, R247) -/

/-- The half with every tile discarded, unformatted; its key slots, chart and records are gone (R247, R254, R364). -/
def Dev.wipeHalf (d : Dev) (h : Half) : Dev :=
  let d := ((d.half h).tier.ftab.filter fun e => e.2.state == .used).foldl (fun d e => d.freeFrame h e.1) d
  d.upd h fun x => { x with
    tier := { x.tier with
      backed := 0, rawTiles := 0, manf := [], ckpt := [], changed := [], ckptMark := 0, mcache := [], streamList := []
      promos := [], sinks := [], fetching := [], dramReads := [], held := [], rehome := [], nand := [], cmd := none
      copying := none, dirtyHigh := false, dirtyStall := false }
    land := { x.land with slots := [], buf := [], preload := none }
    ecc := { x.ecc with poison := [], repairs := [], heals := [] }
    ciph := { x.ciph with slots := [], records := [], zeroPending := [] }
    ctl := { x.ctl with chart := [] }
    pwr := { x.pwr with record := none }
    flash := { x.flash with formatted := false, stripes := [], blocks := [], raw := [], openSeq := 0 } }

/-- A write of `FLSH.CMD` of island 0. -/
def Dev.flshCmd (h : Half) (v : Nat) (d : Dev) : Option Dev :=
  let owned := ([Half.west, .east]).any fun k => (List.range 64).any fun c => (d.ldc k c).extents.any fun e => homeOfUnit e.dpa == h
  if v != 1 || (d.half h).flash.formatting || ((d.half h).flash.formatted && owned) then none
  else some (((((d.wipeHalf h).updFlash h fun x => { x with formatting := true }).setReg h (pgFLSH 0) 0x07C (2 ^ 28)).lfNote h).dirtyNote h)

/-- Show a refused `FORMAT`. -/
def Dev.flshNo (h : Half) (v : Nat) (d : Dev) : Dev :=
  if v = 1 ∧ !(d.half h).flash.formatting then d.setReg h (pgFLSH 0) 0x07C (3 * 2 ^ 28) else d

/-- `FORMAT` (R247): `FLSH.CMD` = 1. -/
def execFormat (org : Origin) (h : Half) (s : State) : Out :=
  onDevT (fun d => d.command org h (pgFLSH 0) 0x078 1 (Dev.flshCmd h 1) false true (Dev.flshNo h 1)) s

/-- Native tiles of the system region outside the reserve, and of the reserve, for a part of `L` LUNs (R245). -/
def sysTiles (L stripes pages bits : Nat) : Nat :=
  L * stripes * pages / 2048 + 4 * bits * ((L * stripes * 4 + 262143) / 262144) + 262144 + 16384
def reserveTiles (bits gib : Nat) : Nat := bits * ((gib * 16384 * 5 + 3) / 4)

/-- The backed count (R91). -/
def backedTiles (good y : Nat) : Nat := (88 * good - 100 * y) / 409600 * 4096

/-- `FORMAT_DONE` (R247): factory marks recorded, the system region on the lowest good stripes of every LUN, the reserve
erased, the block map and an empty Manifest written, the backed count fixed. The part gives the geometry and the marks. -/
def execFormatDone (h : Half) (pages stripes bits : Nat) (luns bad : List Nat) (s : State) : Out :=
  onDevT (fun d =>
    if !(d.half h).flash.formatting then d
    else
      let luns := (luns.eraseDups.filter fun l => decide (l < 8192) && d.chanState h (l / 256) == 2)
      let stripes := min stripes 4095
      let bits := max 1 bits
      let gib := d.fld h (pgFLSH 0) 0x058 15 0
      let badS := ((bad.filter fun b => luns.contains (b / 4 / 4096) && decide (b / 4 % 4096 < stripes)).map (· / 4)).eraseDups
      let n := luns.length
      let up (a : Nat) : Nat := (a + pages - 1) / max 1 pages
      let sysN := up (sysTiles n stripes pages bits)
      let resN := up (reserveTiles bits gib)
      let share (t i : Nat) : Nat := t / max 1 n + bnum (decide (i < t % max 1 n))
      let d := d.updFlash h fun x => { x with
        formatted := true, formatting := false, pages := pages, stripesPerLun := stripes, bits := bits, luns := luns
        maxBudget := gib, blocks := bad.foldl (fun m b => smPut m b 0 1) [] }
      let d := badS.foldl (fun d k => d.setStripe h k { state := .bad }) d
      let d := luns.zipIdx.foldl (fun d e =>
        let good := ((List.range stripes).map fun b => e.1 * 4096 + b).filter fun k => !(badS.contains k)
        let a := share sysN e.2
        let r := share resN e.2
        let d := (good.take a).foldl (fun d k => d.setStripe h k { state := .system, use := 2 }) d
        let d := ((good.drop a).take r).foldl (fun d k =>
          d.setStripe h k { state := .reserve, use := 3, slc := true, erases := 1, ready := true }) d
        d.updFlash h fun x => { x with blocks := (good.take (a + r)).foldl (fun m k =>
          (List.range 4).foldl (fun m p => smSet m (k * 4 + p) 3) m) x.blocks }) d
      let good := (n * stripes - badS.length) * pages
      let d := d.upd h fun x => { x with
        tier := { x.tier with backed := backedTiles good (sysTiles n stripes pages bits + reserveTiles bits gib)
                              rawTiles := n * stripes * pages }
        sail := { x.sail with reservation := 2 ^ 27 } }
      (((d.reserve h).setReg h (pgFLSH 0) 0x07C (2 * 2 ^ 28 + 100)).raise h (pgFLSH 0) .formatDone).lfNote h) s

/-! ### The diagnostic slot (R250) -/

/-- GO written to `FLSH.DIAG_CMD`: none where it is refused. -/
def Dev.diagGo (test : Bool) (h : Half) (i : Nat) (d : Dev) : Option Dev :=
  let n := (List.range 16).foldl (fun v j => v + (d.reg h (pgFLSH i) (0x080 + 4 * j)).toNat * 2 ^ (32 * j)) 0
  let op := n % 256
  if (d.isle h i).diagBusy || op = 1 || op = 2 || ((op = 3 || op = 5 || op = 6) && !test) then none
  else
    let d := (d.updIsle h i fun x => { x with diagBusy := true }).setFld h (pgFLSH i) 0x0C0 5 4 1
    some (d.submit h i 3 n false {} ((smGetD (d.isle h i).rawPages (bitsOf n 79 72) [] ++ List.replicate 18256 0).take 18256))

/-- Show a refused submission; a busy slot keeps its status (R249). -/
def Dev.diagNo (h : Half) (i : Nat) (d : Dev) : Dev := if (d.isle h i).diagBusy then d else d.setFld h (pgFLSH i) 0x0C0 5 4 3

/-- `DIAG_GO` (R250). -/
def execDiagGo (org : Origin) (h : Half) (isle : Nat) (s : State) : Out :=
  onDevT (fun d => if 4 ≤ isle then d else
    d.command org h (pgFLSH isle) 0x0C0 (2 ^ 31 + d.fld h (pgFLSH isle) 0x0C0 3 0) (Dev.diagGo (d.testOn (s.otp.get h) h) h isle) false true
      (Dev.diagNo h isle)) s

/-! ### Last Ferry and start-up (R244, R249) -/

/-- Last Ferry withdraws the queued descriptors of rings 0 and 2 and suspends running erases (R249). -/
def Dev.nandAbort (d : Dev) (h : Half) : Dev :=
  (List.range 4).foldl (fun d i =>
    let d := d.abortOps h i fun o => (o.ring == 0 || o.ring == 2) && !o.issued
    let n := ((d.isle h i).ops.filter fun o => o.issued && o.op == 3 && !o.suspended).length
    (d.updOps h i (fun o => o.issued && o.op == 3 && !o.suspended) fun o =>
      { o with suspended := true, suspends := min (o.suspends + 1) 0xFFFF }).wrap64 h (pgFLSH i) 0x0F8 n) d

/-- Power is lost, or Last Ferry ends: nothing is queued any more; an interrupted erase leaves its stripe ERASING. -/
def Dev.nandDown (d : Dev) (h : Half) : Dev :=
  d.updFlash h fun x => { x with
    timeouts := []
    formatting := false
    isles := x.isles.map fun i => { i with ops := [], comps := [], ringPos := [0, 0, 0, 0], bufs := [], rawPages := [], diagBusy := false } }

/-- The stripe table at a cold start (R244): OPEN closes, ERASED and reserve stripes that the voyage record lists stay, to be
checked, and the others are STALE. Failed LUNs are tried again. -/
def Dev.nandCold (d : Dev) (h : Half) (vouched : List Nat) : Dev :=
  let go (k : Nat) (s : Stripe) : Stripe :=
    let v := vouched.contains k
    match s.state with
    | .opened => { s with state := .full }
    | .erased | .vouched => if v then { s with state := .vouched, checked := 0 } else { s with state := .stale, checked := 0 }
    | .erasing => { s with state := .stale, checked := 0 }
    | .reserve => if v then { s with ready := false, checked := 0 } else { s with state := .stale, ready := false, checked := 0 }
    | _ => s
  d.updFlash h fun x => { x with failedLuns := [], stripes := x.stripes.map fun e => (e.1, go e.1 e.2) }

end Sys2Proof.Machine
end

