-- ==== Sys2Proof/Machine/RegRead.lean ====
section
/-! DEFINITION. What a register reads as: the `ro` fields that show state held elsewhere, block by block from the register
tables of the chapters; every other field reads as stored (R348, R353). -/

namespace Sys2Proof

/-! ### Codes of states -/

/-- `MEMC.STATUS.SUBk_STATE` (R177). -/
def SubState.code : SubState → Nat
  | .absent => 0 | .training => 1 | .up => 2 | .selfRefresh => 3 | .replay => 4 | .retraining => 5 | .freqChange => 6
  | .failed => 7 | .disabled => 8

/-- `LAND.STATUS.STATE` (R192). -/
def LandState.code : LandState → Nat
  | .enabled => 0 | .draining => 1 | .disabled => 2 | .noWays => 3

/-- `FORD.STATUS.STATE` (R25). -/
def FordState.code : FordState → Nat
  | .absent => 0 | .training => 1 | .upFull => 2 | .upHalf => 3 | .retraining => 4 | .lost => 5

/-- `FERY.STATUS.LINK` (R222). -/
def LinkState.code : LinkState → Nat
  | .off => 0 | .training => 1 | .up => 2 | .session => 3 | .retraining => 4 | .lost => 5

/-- `SLOT_STATUS.STATE` (R280). -/
def SlotState.code : SlotState → Nat
  | .empty => 0 | .active => 1 | .sweeping => 2 | .erasing => 3 | .retired => 4

/-- `SUPV.STATUS.SEQ` (R387). -/
def SupvSeq.code : SupvSeq → Nat
  | .off => 0 | .standby => 1 | .up => 2 | .holdRelease => 3 | .on => 4 | .down => 5 | .moored => 6 | .tripped => 7

/-- `PWRS.STATE.STATE` (R327). No rule gives the codes of MOORED and OFF. -/
def PowerState.code : PowerState → Nat
  | .on => 0 | .trim => 1 | .lastFerry => 2 | .moored => (Config.powerCode 0).toNat
  | .off => (Config.powerCode 1).toNat

end Sys2Proof

namespace Sys2Proof.Machine

/-! ### Values derived from other state -/

/-- `RTC_NOW`: 32.768 kHz ticks since G0 came up (R321). -/
def Dev.rtcNow (d : Dev) : Nat := d.uptime * 32768 / 1000000000

/-- Evacuation rate in tiles per second (R309): channels UP and LUNs that hold reserve stripes. -/
def Dev.evacRate (d : Dev) (h : Half) : Nat :=
  let c := lsum ((d.half h).flash.isles.map fun i => (i.chans.filter (· == 2)).length)
  let l := (((d.reserveStripes h).map fun s => stripeLun s.1).dedup).length
  min (c * 47619 * d.fld h (pgFLSH 0) 0x040 11 0 / 3600) (l * 2500)

/-- `PWRS.LF_NEED_US` (R314): (D + M) ÷ R plus T_FIX, in µs. -/
def Dev.lfNeed (d : Dev) (h : Half) : Nat :=
  let t := d.dirtyTiles h + (d.half h).tier.changed.length
  let r := d.evacRate h
  min 0xFFFFFFFF ((if r = 0 then 0 else (t * 1000000 + r - 1) / r) + d.fld h pgPWRS 0x040 31 16 + 13100)

/-- Throttle step in force, 0 to 3 (R381). -/
def Dev.tStep (d : Dev) (h : Half) : Nat := (d.half h).thrm.step

/-- Speed of timing set A in MT/s, by MEMSPD and the DIMMs of the channel (R157). -/
def Dev.speedA (d : Dev) (h : Half) (c : Nat) : Nat :=
  match bitsOf (d.half h).strap.eff.toNat 9 8 with
  | 0 => if (d.chan h c).dimms = 2 then 6400 else 8000
  | 1 => 6400 | 2 => 5600 | _ => 4800

/-- Percent of the current scrub pass that is done (R140). -/
def Dev.scrubPct (d : Dev) (h : Half) : Nat :=
  let all := lsum ((d.subs h).map fun k => (d.chan h (k / 2)).framesPerSub * 1024)
  let got := lsum ((d.subs h).map fun k => smGetD (d.half h).ecc.scrubPos k 0)
  if all = 0 then 0 else min 100 (100 * got / all)

/-- Oldest journal sequence still readable (R367): the oldest spilled entry, or the ring's oldest. -/
def CtlHalf.oldest (c : CtlHalf) : Nat :=
  match c.spill.getLast? with
  | some t => ((t.getLast?.orElse fun _ => c.journal.getLast?).map (·.jseq)).getD 0
  | none => (c.journal.getLast?.map (·.jseq)).getD 0

/-- `FORD` registers that state shows (R25, R33). -/
def Dev.roFord (d : Dev) (h : Half) (off : Nat) : Option Nat :=
  let f := (d.half h).ford
  if off = 0x044 then some (f.repair1 * 256 + f.repair0 * 32 + bnum f.up1 * 16 + bnum f.up0 * 8 + f.state.code) else none

/-- `SAIL` registers (R66). -/
def Dev.roSail (d : Dev) (h : Half) (off : Nat) : Option Nat :=
  let x := (d.half h).sail
  match off with
  | 0x048 => some (min (d.backlog h) 0xFFFF * 65536 + bnum x.holding * 128 + bnum d.split * 64 + bnum d.solo * 32
      + bnum (d.twinPaired h) * 16 + bnum (d.armed h) * 8 + bnum x.dirtyOk * 4 + bnum x.lfReady * 2 + bnum (d.isMaster h))
  | 0x050 => some x.current
  | 0x058 => some x.sealed
  | 0x060 => some x.mirrored
  | 0x068 => some x.soloFrom
  | _ => none

/-- `LDP` registers of a context (R47, R70, R77, R117). Stream registers are given by element. -/
def Dev.roLdp (d : Dev) (h : Half) (c off k : Nat) : Option Nat :=
  let x := d.ldc h c
  match off with
  | 0x058 => some (d.extents h c).length
  | 0x070 => some (d.ldFrames .east (d.ldNum h c) * 2 ^ 32 + d.ldFrames .west (d.ldNum h c))
  | 0x108 => some (x.doneSeq % 65536 * 2 ^ 48 + x.fences.length * 2 ^ 40 + x.doneReason * 2 ^ 36 + x.doneStatus * 2 ^ 32
      + x.doneToken.toNat)
  | 0x110 => some x.mark
  | 0x14C => some (bnum (x.streams.getD k {}).isOpen * 2 ^ 31 + (x.streams.getD k {}).status * 256)
  | 0x180 => some (x.streams.getD k {}).pos
  | 0x200 => some (d.evStateOf h c).toNat
  | 0x204 => some x.evLatch.toNat
  | _ => none

/-- `HPT` registers (R90). -/
def Dev.roHpt (d : Dev) (h : Half) (p off : Nat) : Option Nat :=
  if off = 0x044 then
    some (fromLe ((((d.half h).ports.getD p {}).links.take 4).map fun l =>
      bnum l.cxlMem * 128 + bnum l.up * 64 + l.speed % 4 * 16 + l.width % 16))
  else none

/-- `TIER` registers (R121). -/
def Dev.roTier (d : Dev) (h : Half) (off : Nat) : Option Nat :=
  match off with
  | 0x04C => some ((d.half h).tier.ageClock.toNat * 2 ^ 24)
  | 0x050 => some (d.dirtyTiles h)
  | 0x058 => some (d.poolFrames h)
  | 0x05C => some (d.freeFmt h)
  | 0x060 => some (d.freeRaw h)
  | 0x064 => some (d.countFrames h .retired)
  | 0x06C => some (d.pinned h)
  | _ => none

/-- `MANF` registers (R121). -/
def Dev.roManf (d : Dev) (h : Half) (off k : Nat) : Option Nat :=
  let x := (d.half h).tier
  match off with
  | 0x040 => some x.backed
  | 0x048 => some x.rawTiles
  | 0x060 =>
    let n := (x.manf.filter fun e => tileCode e.2.state == k).length
    some (if k = 0 then x.backed - (x.manf.filter fun e => tileCode e.2.state != 0).length else n)
  | _ => none

/-- `SCOR` registers (R153). -/
def Dev.roScor (d : Dev) (h : Half) (off : Nat) : Option Nat :=
  let x := (d.half h).ecc
  match off with
  | 0x044 => some (d.fld h pgSCOR 0x044 31 16 * 65536 + bnum ((d.subs h).any fun k => (d.sub h k).scrubBoost) * 128
      + d.scrubPct h)
  | 0x058 => some (x.newest % 256 * 2 ^ 24 + d.hardOpen h * 512 + (x.sheet.filter fun e => e.cls != 0).length)
  | 0x09C => some x.filter.length
  | 0x0A0 => some (min (d.faultyRows h 9) 255 * 65536 + min (d.faultyRows h 8) 8 * 256 + min (d.faultyRows h 7) 255)
  | _ => none

/-- `ECCD.SRAM_INJ.ARM` (R149). -/
def Dev.roEccd (d : Dev) (h : Half) (off : Nat) : Option Nat :=
  if off = 0x120 then some (bnum (d.half h).ecc.injArmed * 2 ^ 31) else none

/-- `MEMC` registers of a channel (R177). -/
def Dev.roMemc (d : Dev) (h : Half) (c off : Nat) : Option Nat :=
  let x := d.chan h c
  match off with
  | 0x044 => some (x.sub1.state.code * 2 ^ 28 + x.sub0.state.code * 2 ^ 24 + bnum x.setB * 2 ^ 17 + bnum x.hot * 2 ^ 16
      + x.caseTemp % 256 * 256)
  | 0x048 => some (x.dimmGb % 512 * 2 ^ 23 + x.dimms * 2 ^ 21 + x.pkgRanks * 2 ^ 19 + x.stack * 2 ^ 17 + x.density * 2 ^ 15)
  | 0x04C => some x.framesPerSub
  | 0x050 => some (4800 * 65536 + d.speedA h c)
  | 0x058 => some ((if x.hot then 1950 else 3900) * 65536 + x.trfc)
  | 0x05C => some (if 2 ≤ d.tStep h then 75 else 100)
  | _ => none

/-- `LAND` registers (R192). -/
def Dev.roLand (d : Dev) (h : Half) (off : Nat) : Option Nat :=
  let x := (d.half h).land
  match off with
  | 0x044 => some x.state.code
  | 0x048 => some (x.locked.toNat * 65536)
  | 0x064 => some x.lfsr.toNat
  | 0x068 => some (x.slots.filter fun e => e.2.dirty).length
  | _ => none

/-- `FERY` registers (R222). -/
def Dev.roFery (d : Dev) (h : Half) (off : Nat) : Option Nat :=
  let x := (d.half h).fery
  match off with
  | 0x050 => some (x.link.code * 2 ^ 29 + x.lanesUp % 32 * 2 ^ 24 + bnum x.halfRate * 2 ^ 23
      + (if x.srcOn then 1 else if x.rcvOn then 2 else 0) * 2 ^ 21 + bnum x.fenced * 2 ^ 20 + bnum x.peerMgmtE * 2 ^ 19
      + bnum x.peerMgmtW * 2 ^ 18 + bnum x.peerSplit * 2 ^ 17 + min (x.credits / 16) 0xFFFF)
  | 0x054 => some x.credits
  | 0x0D8 => some x.txSeq
  | 0x0E0 => some x.rxSeq
  | 0x0E8 => some x.epoch
  | _ => none

/-- `FLSH` registers of an island (R250). Those of the half's tier lie on island 0 alone. -/
def Dev.roFlsh (d : Dev) (h : Half) (i off : Nat) : Option Nat :=
  let x := (d.half h).flash
  let own (v : Nat) : Option Nat := some (if i = 0 then v else 0)
  match off with
  | 0x044 => some (((d.isle h i).chans.zipIdx.map fun e => e.1 % 4 * 4 ^ e.2).sum)
  | 0x05C => own (d.poolMinutes h)
  | 0x060 => own (d.poolErased h)
  | 0x068 => own (d.poolTarget h)
  | 0x070 => own (d.opLeft h)
  | 0x108 => some (x.blocks.filter fun b => b.2 == 2 && lunIsle (stripeLun (b.1 / 4)) == i).length
  | _ => none

/-- `CIPH` registers (R281). -/
def Dev.roCiph (d : Dev) (h : Half) (off : Nat) : Option Nat :=
  let x := (d.half h).ciph
  if off = 0x044 then
    some (x.coreFailed.toNat * 2 ^ 20 + ((List.range 4).map fun c => bnum (x.running c).isSome * 2 ^ c).sum * 2 ^ 16 + x.queued.length)
  else none

/-- `KEYS` registers (R280), of the slot last selected. -/
def Dev.roKeys (d : Dev) (h : Half) (off : Nat) : Option Nat :=
  let n := d.keys.selected
  let k := d.kslot h n
  let xs := (d.half h).ciph.slots
  match off with
  | 0x044 => some (d.keys.status * 2 ^ 28)
  | 0x048 => some (k.state.code * 2 ^ 29 + bnum k.cur * 2 ^ 28 + bnum k.loadedB * 2 ^ 27 + bnum k.loadedA * 2 ^ 26
      + bnum k.pending * 2 ^ 25 + bnum k.walking * 2 ^ 24 + bnum k.owner.isSome * 2 ^ 23 + (k.owner.getD 0) % 128 * 2 ^ 16)
  | 0x04C => some k.gen.toNat
  | 0x050 => some (d.users h n true * 2 ^ 32 + d.users h n false)
  | 0x058 => some (match d.keys.sweep with
      | some w => 2 ^ 31 + w.slot
      | none => 0)
  | 0x060 => some (match d.keys.sweep with
      | some w => w.cursor h
      | none => 0)
  | 0x06C => some ((xs.filter fun e => e.2.state == .retired).length * 65536
      + (1024 - (xs.filter fun e => e.2.state != .empty).length))
  | _ => none

/-- `OTPC` registers, from the OTP row of the die (R297). -/
def Dev.roOtpc (d : Dev) (o : OtpRow) (h : Half) (off : Nat) : Option Nat :=
  match off with
  | 0x040 => some (bnum (o.secret != 0 && (d.half h).boot.keys.isSome) * 256 + o.life)
  | 0x044 => some (bnum (o.signer1 != 0) * 32 + bnum (o.signer0 != 0) * 16 + o.revoke.vote.toNat % 4)
  | 0x048 => some o.svnOf
  | 0x04C => some (o.strapVal.vote.toNat % 2 ^ 14 * 65536 + o.strapLock.vote.toNat % 128)
  | 0x050 => some o.serial.toNat
  | _ => none

/-- `STRP` registers (R369). -/
def Dev.roStrp (d : Dev) (o : OtpRow) (h : Half) (off : Nat) : Option Nat :=
  let x := (d.half h).strap
  match off with
  | 0x040 => some (h.num * 65536 + x.pins.toNat)
  | 0x044 => some (h.num * 65536 + x.eff.toNat)
  | 0x048 => some (o.strapLock.vote.toNat % 128)
  | 0x04C => some (d.half h.other).strap.pins.toNat
  | _ => none

/-- `PWRS` registers (R327). -/
def Dev.roPwrs (d : Dev) (h : Half) (off : Nat) : Option Nat :=
  let p := (d.half h).pwr
  match off with
  | 0x044 => some (p.wakeCause * 2 ^ 20 + p.lfStep * 65536 + bnum p.rearm * 8 + p.state.code)
  | 0x048 => some (p.gated ||| p.failed ||| (if d.single then BitVec.twoPow 22 15 else 0)).toNat
  | 0x050 => some d.rtcNow
  | 0x060 => some ((p.record.map (·.voyage)).getD 0)
  | 0x068 => some (d.lfNeed h)
  | 0x080 => some p.rearmLeft
  | _ => none

/-- `SUPV` registers; West's supervisor serves both pages (R387). -/
def Dev.roSupv (d : Dev) (off : Nat) : Option Nat :=
  let s := d.supv
  let cnt (k : Nat) : Nat := smGetD s.counts (d.fld .west pgSUPV 0x080 3 0 * 4 + k) 0
  match off with
  | 0x064 => some (s.seq.code * 2 ^ 28 + s.step % 16 * 2 ^ 24 + s.pg.toNat * 256 + s.good.toNat)
  | 0x088 => some (cnt 3 * 2 ^ 48 + cnt 2 * 2 ^ 32 + cnt 1 * 2 ^ 16 + cnt 0)
  | 0x090 => some s.logHead
  | 0x094 => some (s.logSeq % 2 ^ 32)
  | _ => none

/-- `THRM` registers (R388). -/
def Dev.roThrm (d : Dev) (h : Half) (off : Nat) : Option Nat :=
  let t := (d.half h).thrm
  match off with
  | 0x044 => some (d.fld h pgTHRM 0x044 31 24 * 2 ^ 24 + t.step * 256 + bnum t.held * 128)
  | 0x054 => some t.excluded.toNat
  | _ => none

/-- `MGMT` registers (R343). -/
def Dev.roMgmt (d : Dev) (h : Half) (off : Nat) : Option Nat :=
  let m := (d.half h).mgmt
  match off with
  | 0x040 => some (m.beat % 2 ^ 32)
  | 0x044 => some (min 15 (m.losses.filter fun t => decide (d.uptime < t + 3600000000000)).length * 16 + bnum m.held * 8
      + bnum (d.served h) * 4 + bnum m.takeover * 2 + bnum ((d.half h).boot.running && !m.lost))
  | 0x04C => some (d.half h).pwr.failed.toNat
  | 0x050 => some m.faultTime
  | _ => none

/-- `JRNL` registers (R367). -/
def Dev.roJrnl (d : Dev) (h : Half) (off : Nat) : Option Nat :=
  let c := (d.half h).ctl
  match off with
  | 0x044 => some (bnum (d.jFull h) * 2 ^ 31 + bnum (d.spillOk h) * 2 ^ 30 + c.unspilled)
  | 0x048 => some c.jseq
  | 0x050 => some c.oldest
  | 0x070 => some c.evSeq
  | _ => none

/-- `CAST` registers as an origin reads them (R368). -/
def Dev.roCast (d : Dev) (org : Origin) (off k : Nat) : Option Nat :=
  let v := d.viewOf org
  let t := d.cast.slots.findSome? fun s => s.bind fun t => if t.org == org then some t else none
  match off with
  | 0x044 => some (match t with
      | some t => (if t.committing then 2 else if v.state == .refused then 12 else 1) * 2 ^ 28 + t.count * 65536 + t.id
      | none => v.state.code * 2 ^ 28 + v.staged * 65536 + v.txn)
  | 0x048 => some (if t.isSome then 0 else v.err.toNat)
  | 0x04C => some (if t.isSome then 0 else v.errJseq.toNat)
  | 0x060 => some (match d.cast.slots.getD k none with
      | some t =>
        let c := d.orgCode t.org
        2 ^ 31 + c.1 * 2 ^ 28 + c.2 % 256 * 2 ^ 20 + t.id
      | none => 0)
  | _ => none

/-- The registers every page begins with (R348). -/
def Dev.roCommon (d : Dev) (org : Origin) (h : Half) (page off : Nat) (b : Block) (inst : Nat) : Option Nat :=
  match off with
  | 0x000 => some (b.code * 2 ^ 24 + inst % 256 * 65536 + 256 + h.num)
  | 0x004 => some (b.island inst * 2 ^ 24 + bnum b.hasDevWide * 512 + bnum b.stageable * 256 + b.events)
  | 0x008 =>
    let st := (d.openTxn org).any fun i => (d.cast.slots.getD i none).any fun t => t.staged.any fun s => s.1 == h && s.2.1 / 1024 == page
    some (bnum (d.islandGated h (b.island inst) && !(d.single && b == .ford)) * 2 ^ 30
      + bnum (b.island inst == 19 && d.served h) * 2 + bnum st)
  | 0x010 => some (bnum (d.evPend h page != 0) * 2 ^ 31)
  | 0x014 => some (smGetD (d.half h).ctl.pageJseq page 0).toNat
  | 0x020 => some (d.evRaw h page).toNat
  | 0x030 => some (d.evPend h page).toNat
  | _ => none

/-- The value of an element that state other than the register store shows; none where the store holds it. -/
def Dev.roValue (d : Dev) (otp : Pair OtpRow) (org : Origin) (h : Half) (page off k : Nat) : Option Nat :=
  match blockOf page with
  | none => none
  | some (b, inst) =>
    if off < 0x040 then d.roCommon org h page off b inst
    else match b with
      | .mgmt => d.roMgmt h off
      | .strp => d.roStrp (otp.get h) h off
      | .jrnl => d.roJrnl h off
      | .cast => d.roCast org off k
      | .otpc => d.roOtpc (otp.get h) h off
      | .boot => if off = 0x054 then some (d.half h).boot.halt else none
      | .pwrs => d.roPwrs h off
      | .supv => d.roSupv off
      | .thrm => d.roThrm h off
      | .sail => d.roSail h off
      | .tier => d.roTier h off
      | .manf => d.roManf h off k
      | .land => d.roLand h off
      | .scor => d.roScor h off
      | .fery => d.roFery h off
      | .ford => d.roFord h off
      | .ciph => d.roCiph h off
      | .keys => d.roKeys h off
      | .hpt => d.roHpt h inst off
      | .memc => d.roMemc h inst off
      | .flsh => d.roFlsh h inst off
      | .ldp => d.roLdp h inst off k
      | .eccd => d.roEccd h off
      | .hku | .dtrn => none

/-- Where a training array's word is held: its offset in the set that `DTRN.CTL.SET` shows (R178). -/
def dtrnArray (b : Block) (off : Nat) : Bool :=
  b == .dtrn && ((decide (0x400 ≤ off) && decide (off < 0x8B0)) || (decide (0x900 ≤ off) && decide (off < 0xA00)))

/-- A stored word, those of the training arrays in the set shown. -/
def Dev.storeWord (d : Dev) (h : Half) (page off : Nat) : Word :=
  match blockOf page with
  | some (b, c) =>
    if dtrnArray b off then
      (smGet ((d.chan h c).arr (d.fld h page 0x040 24 24 == 1)) off).getD (arrReset off)
    else if b == .supv then d.reg .west page off
    else d.reg h page off
  | none => 0

/-- Store a word likewise. -/
def Dev.putWord (d : Dev) (h : Half) (page off : Nat) (v : Word) : Dev :=
  match blockOf page with
  | some (b, c) =>
    if dtrnArray b off then
      let s := d.fld h page 0x040 24 24 == 1
      d.updChan h c fun x => x.setArr s (smPut (x.arr s) off (arrReset off) v)
    else d.setReg h page off v.toNat
  | none => d

/-- The value of a register's element, low half first: `ro`, `w1c` and `rwi` fields from the state they show where it is shown, `wo` fields zero, the
rest as `word` gives it. -/
def Dev.regValue (d : Dev) (otp : Pair OtpRow) (org : Origin) (h : Half) (page : Nat) (r : Reg) (k : Nat)
    (word : Nat → Word) : Nat :=
  let base := r.base k
  let v := (word base).toNat + (if r.wide then 2 ^ 32 * (word (base + 4)).toNat else 0)
  let keep := r.maskOf fun a => a != .wo
  match d.roValue otp org h page r.off k with
  | none => v &&& keep
  | some x =>
    let ro := r.maskOf fun a => a == .ro || a == .w1c || a == .rwi
    (x &&& ro) ||| (v &&& (keep - ro))

/-- A 32-bit word as an origin reads it, staged values of its own transaction included (R358). -/
def Dev.readWord (d : Dev) (otp : Pair OtpRow) (org : Origin) (h : Half) (page off : Nat) : Word :=
  let off := off / 4 * 4
  match blockOf page with
  | none => 0
  | some (b, inst) =>
    if b == .flsh && inst != 0 && decide (0x058 ≤ off) && decide (off < 0x080) then 0
    else match findReg b off with
      | none => 0
      | some (r, k) =>
        let staged := (d.openTxn org).bind fun i => d.cast.slots.getD i none
        let word (o : Nat) : Word :=
          let own := staged.bind fun t => (t.staged.find? fun s => s.1 == h && s.2.1 == regKey page o).map (·.2.2)
          own.getD (d.storeWord h page o)
        let v := d.regValue otp org h page r k word
        BitVec.ofNat 32 (if r.base k = off then v else v / 2 ^ 32)

end Sys2Proof.Machine
end

