-- ==== Sys2Proof/Machine/Cast.lean ====
section
/-! DEFINITION. Castling (R357 to R364): staging, the checks of R360 and R407 on the values both halves would hold, what a
committed field does, implicit commits, and the exchange of R361.
Log entries of notes/assumptions that bear on this file: DEDUCED 37, DEDUCED 50. -/

namespace Sys2Proof.Machine

/-! ### Registers as values -/

/-- The bits of a register that a commit changes. EN of a supply group is writable for G7 only (R387). -/
def stagedMask (b : Block) (r : Reg) (k : Nat) : Nat :=
  let m := r.maskOf Acc.staged
  if b == .supv && r.off == 0x040 && k != 7 then m % 2 ^ 31 else m

/-- The register and element of a word, by its key. -/
def keyReg (key : Nat) : Option (Block × Nat × Reg × Nat) :=
  match blockOf (key / 1024) with
  | none => none
  | some (b, inst) => (findReg b (key % 1024 * 4)).map fun e => (b, inst, e.1, e.2)

/-- The staged bits of a stored element, 64 bits where the register is wide. -/
def Dev.elemOf (d : Dev) (h : Half) (page : Nat) (b : Block) (r : Reg) (k : Nat) : Nat :=
  let base := r.base k
  ((d.storeWord h page base).toNat + (if r.wide then 2 ^ 32 * (d.storeWord h page (base + 4)).toNat else 0)) &&& stagedMask b r k

/-- Store words of a half, by key. -/
def Dev.putAll (d : Dev) (h : Half) (ws : List (Nat × Word)) : Dev :=
  ws.foldl (fun d e => d.putWord h (e.1 / 1024) (e.1 % 1024 * 4) e.2) d

/-! ### Cross-field checks (R360) -/

/-- Enabled contexts of the device. -/
def Dev.bound (d : Dev) : List (Half × Nat) := d.halves.flatMap fun h => (d.ctxs h).map fun c => (h, c)

/-- The bindings of R71. -/
def Dev.bindsOk (n : Dev) : Bool :=
  let l := n.bound
  decide ((l.map fun e => n.ldNum e.1 e.2).Nodup)
    && (n.halves.all fun h => [0, 1, 2, 3].all fun p => decide (((n.ctxs h).filter fun c => n.ldPort h c == p).length ≤ 16))
    && decide ((l.map fun e => (e.1, n.ldPort e.1 e.2, n.ldSub e.1 e.2, n.ldId e.1 e.2)).Nodup)
    && l.all fun e => decide (n.ldSub e.1 e.2 < n.subLinks e.1 (n.ldPort e.1 e.2))

/-- The LD has a committed HDM decoder. -/
def Dev.hdmSet (d : Dev) (h : Half) (c : Nat) : Bool := (d.ldc h c).hdm.any (·.committed)

/-- Two runs of DPA in 64 MiB units overlap. -/
def runsMeet (a b : Extent) : Bool := decide (a.dpa < b.dpa + b.len) && decide (b.dpa < a.dpa + a.len)

/-- The static extent of a context meets R72, R31 and, on the FSC-9418-C, R4. -/
def Dev.staticOk (n : Dev) (h : Half) (c : Nat) : Bool :=
  let size := (n.reg h (pgLDP c) 0x050).toNat
  if size = 0 then true
  else
    let e : Extent := { region := 0, lda := 0, dpa := bitsOf (n.reg64 h (pgLDP c) 0x048) 51 26, len := 4 * size }
    let k := homeOfUnit e.dpa
    let spanOk := n.fld h (pgLDP c) 0x060 1 1 == 1
    decide (e.dpa % 2 ^ 25 + e.len ≤ 2 ^ 25) && (k == h || spanOk) && !(n.single && k == .east)
      && decide ((e.dpa % 2 ^ 25 + e.len) * 1024 ≤ (n.half k).tier.backed)
      && (n.bound.all fun o => o == (h, c) || (n.extents o.1 o.2).all fun x => !(runsMeet e x))

/-- Every extent of a context lies in tiles the device owns (R210). -/
def Dev.extOwned (n : Dev) (h : Half) (c : Nat) : Bool :=
  (n.extents h c).all fun e =>
    let t := e.dpa % 2 ^ 25 * 1024
    n.ownsTile t && n.ownsTile (t + e.len * 1024 - 1)

/-- REGION_LEN is a multiple of the block size (R72). -/
def Dev.dcCfgOk (n : Dev) (h : Half) (c : Nat) : Bool :=
  n.fld h (pgLDP c) 0x054 29 8 % (match n.fld h (pgLDP c) 0x054 5 4 with
    | 0 => 1 | 1 => 4 | _ => 16) == 0

/-- The dirty budget and the water marks of R112. -/
def Dev.budgetOk (n : Dev) (h : Half) : Bool :=
  decide (0 < n.fld h pgTIER 0x040 15 0) && decide (2 * n.budget h ≤ n.poolFrames h)
def Dev.waterOk (n : Dev) (h : Half) : Bool :=
  decide (n.fld h pgTIER 0x044 15 8 < n.fld h pgTIER 0x044 7 0) && decide (n.fld h pgTIER 0x044 7 0 ≤ 99)

/-- Floors and ceilings (R114). -/
def Dev.floorsOk (n : Dev) (h : Half) (c : Nat) : Bool :=
  let fl := (n.reg h (pgLDP c) 0x068).toNat
  let ce := (n.reg h (pgLDP c) 0x06C).toNat
  (n.halves.all fun k =>
    decide (4 * lsum ((n.bound.filter fun e => n.ldIn e.1 e.2 k).map fun e => (n.reg e.1 (pgLDP e.2) 0x068).toNat) ≤ n.poolFrames k))
    && (ce == 0 || (decide (fl ≤ ce) && decide (64 ≤ ce)))

/-- The key slot of R255; `ks` are the words the commit stages, of which no two may name one slot for different LDs. -/
def Dev.keyOk (n : Dev) (ks : List (Half × Nat)) (h : Half) (c : Nat) : Bool :=
  let s := n.fld h (pgLDP c) 0x078 9 0
  let k := n.kslot .west s
  (k.owner.isNone || k.owner == some (n.ldNum h c)) && k.state != .retired && !(k.state == .empty && k.walking) && n.ownsSlot s
    && ks.all fun e => e == (h, regKey (pgLDP c) 0x078) ||
        !(decide (0x100 ≤ e.2 / 1024) && decide (e.2 / 1024 < 0x140) && e.2 % 1024 == 0x078 / 4 && n.fld e.1 (e.2 / 1024) 0x078 9 0 == s)

/-- A subchannel whose SUB_EN clears holds no USED frame and no part of a region (R177). -/
def Dev.subFree (n : Dev) (h : Half) (k : Nat) : Bool :=
  !((n.half h).tier.ftab.any fun e => e.2.state == .used && frameSub e.1 == k) && n.regionOf h k == 0

/-- A channel whose CH_EN clears holds no live tile and no system-region stripe (R250). -/
def Dev.chanFree (n : Dev) (h : Half) (c : Nat) : Bool :=
  !((n.half h).flash.stripes.any fun e => stripeLun e.1 / 256 == c && (decide (0 < e.2.live) || e.2.use == 2 || e.2.state == .system))

/-- The cross-field rules of one register: `d` before the commit, `n` as it would be after, `ks` the words staged. -/
def Dev.blockOk (d n : Dev) (ks : List (Half × Nat)) (h : Half) (b : Block) (i : Nat) (r : Reg) (k : Nat) : Bool :=
  match b with
  | .ldp =>
    if r.off = 0x040 then
      n.bindsOk && !(d.reg h (pgLDP i) 0x040 != n.reg h (pgLDP i) 0x040 && d.hdmSet h i) && (!(n.ldOn h i) || n.staticOk h i)
    else if r.off = 0x048 ∨ r.off = 0x050 then n.staticOk h i && n.extOwned h i
    else if r.off = 0x060 then n.staticOk h i
    else if r.off = 0x054 then n.dcCfgOk h i
    else if r.off = 0x068 ∨ r.off = 0x06C then n.floorsOk h i
    else if r.off = 0x078 then n.keyOk ks h i
    else true
  | .hpt =>
    if r.off = 0x040 then
      let cut := d.fld h (pgHPT i) 0x040 1 0 != n.fld h (pgHPT i) 0x040 1 0
        || (d.fld h (pgHPT i) 0x040 6 6 == 1 && n.fld h (pgHPT i) 0x040 6 6 == 0)
      n.bindsOk && !(cut && (d.ctxs h).any fun c => d.ldPort h c == i && d.hdmSet h c)
    else if r.off = 0x048 then !(n.single && decide (4 ≤ n.fld h (pgHPT i) 0x048 2 0))
    else true
  | .tier => if r.off = 0x040 then n.budgetOk h else if r.off = 0x044 then n.waterOk h else true
  | .fery => if r.off = 0x044 ∨ r.off = 0x048 then n.bound.all fun e => n.extOwned e.1 e.2 else true
  | .land => !(r.off == 0x040 && n.fld h pgLAND 0x040 0 0 == 1 && (d.half h).land.state == .draining)
  | .memc =>
    if r.off = 0x040 then [0, 1].all fun j =>
      !(d.fld h (pgMEMC i) 0x040 j j == 1 && n.fld h (pgMEMC i) 0x040 j j == 0) || n.subFree h (2 * i + j)
    else true
  | .flsh =>
    if r.off = 0x040 then (List.range 8).all fun j =>
      !(d.fld h (pgFLSH i) 0x040 (16 + j) (16 + j) == 1 && n.fld h (pgFLSH i) 0x040 (16 + j) (16 + j) == 0) || n.chanFree h (8 * i + j)
    else true
  | .supv =>
    if (r.off = 0x040 ∧ k = 7) ∨ r.off = 0x06C then
      !(n.fld .west pgSUPV 0x05C 31 31 == 1 && n.fld .west pgSUPV 0x06C 15 0 == 0)
    else true
  | .thrm =>
    if r.off = 0x040 then
      let w := n.fld h pgTHRM 0x040 23 16
      let o := n.fld h pgTHRM 0x040 15 8
      decide (w ≤ o) && decide (o + 2 * n.fld h pgTHRM 0x040 7 4 ≤ 109)
    else true
  | _ => true

/-- A staged word passes every rule (R360, R407): `c` is the half that judges it. -/
def Dev.wordOk (d n : Dev) (c : Half) (ks : List (Half × Nat)) (e : Half × Nat) : Bool :=
  match keyReg e.2 with
  | none => false
  | some (b, i, r, k) =>
    let page := e.2 / 1024
    !(d.pageDark c e.1 page) && !(d.split && e.1 != c)
      && rangeOk b r.off (n.elemOf e.1 page b r k)
      && (!r.devWide || n.single || (!n.split && n.elemOf .west page b r k == n.elemOf .east page b r k))
      && d.blockOk n ks e.1 b i r k

/-- The first word of a list of changes that fails (R360); none where the commit passes. -/
def Dev.castCheck (d : Dev) (c : Half) (ws : List (Half × Nat × Word)) : Option (Half × Nat) :=
  let n := ws.foldl (fun n e => n.putWord e.1 (e.2.1 / 1024) (e.2.1 % 1024 * 4) e.2.2) d
  let ks := ws.map fun e => (e.1, e.2.1)
  ks.find? fun e => !(d.wordOk n c ks e)

/-! ### What committed fields do -/

/-- Take a port's links down. -/
def Dev.portLinksDown (d : Dev) (h : Half) (p : Nat) : Dev :=
  (List.range 4).foldl (fun d s =>
    if (((d.half h).ports.getD p {}).links.getD s {}).up then (d.subReset h p s).raise h (pgHPT p) .linkDown s else d) d

/-- `LAND.WAYS` (R188): a cleared bit disables its way; a set one enables it with its tally cleared. -/
def Dev.waysHook (d : Dev) (h : Half) (old new : Nat) : Dev :=
  let d := (List.range 16).foldl (fun d w =>
    if old.testBit w && !(new.testBit w) then d.wayDisable h w false
    else if !(old.testBit w) && new.testBit w then
      (d.setReg h pgLAND (0x080 + 4 * w) 0).upd h fun x => { x with land := { x.land with
        tallyStart := smDel x.land.tallyStart w, disabling := x.land.disabling.filter (· != w) } }
    else d) d
  d.landNote h

/-- `HPT.CFG` (R71, R90, R301). -/
def Dev.hptHook (d : Dev) (h : Half) (p old new : Nat) : Dev :=
  let en := bitsOf new 6 6 == 1
  let d := if (bitsOf old 6 6 == 1 && !en) || bitsOf old 1 0 != bitsOf new 1 0 then d.portLinksDown h p else d
  let train := en && (bitsOf old 6 6 == 0 || bitsOf old 1 0 != bitsOf new 1 0)
  let d := if train then d.updPort h p fun q => { q with training := true } else d
  d.gateNote h

/-- `MEMC.CFG` (R177, R301): a subchannel whose SUB_EN clears is DISABLED. -/
def Dev.memcHook (d : Dev) (h : Half) (c new : Nat) : Dev :=
  let d := [0, 1].foldl (fun d j =>
    let k := 2 * c + j
    if !(new.testBit j) && !([SubState.absent, .failed, .disabled].contains (d.sub h k).state) then
      (d.updSub h k fun s => { s with state := .disabled }).upd h fun x => { x with tier := { x.tier with
        ftab := x.tier.ftab.filter fun e => frameSub e.1 != k } }
    else d) d
  d.gateNote h

/-- `FLSH.CFG` (R250): a channel whose CH_EN clears is ABSENT, and one whose bit is set trains. -/
def Dev.flshHook (d : Dev) (h : Half) (i old new : Nat) : Dev :=
  (List.range 8).foldl (fun d j =>
    let c := 8 * i + j
    if old.testBit (16 + j) && !(new.testBit (16 + j)) then d.setChan h c 0
    else if !(old.testBit (16 + j)) && new.testBit (16 + j) && d.chanState h c == 0 && !(d.islandDark h (10 + i)) then d.setChan h c 1
    else d) d

/-- `LDP.KEY` (R255): the LD owns the slot, if the slot has no owner. -/
def Dev.keyHook (d : Dev) (h : Half) (c : Nat) : Dev :=
  d.slotBoth (d.fld h (pgLDP c) 0x078 9 0) fun k => if k.owner.isNone then { k with owner := some (d.ldNum h c) } else k

/-- What a changed element does in its half once the new value stands. -/
def Dev.hook (d : Dev) (h : Half) (page : Nat) (b : Block) (i : Nat) (r : Reg) (old new : Nat) : Dev :=
  if r.off = 0x028 then d.evDeliver h page (d.evRaw h page &&& BitVec.ofNat 64 old)
  else if r.off < 0x040 then d
  else match b with
    | .ford => if r.off = 0x040 && h == .west && old != new then d.fordEnable else d
    | .sail => (if r.off = 0x044 then d.holdCheck else d).measNote
    | .tier => if r.off = 0x040 ∨ r.off = 0x044 then (d.dirtyNote h).lfNote h else d
    | .land =>
      if r.off = 0x040 then (if new.testBit 0 then (if old.testBit 0 then d else d.landOn h) else d.landOff h)
      else if r.off = 0x048 then d.waysHook h old new
      else d
    | .hpt => if r.off = 0x040 then d.hptHook h i old new else d
    | .memc => if r.off = 0x040 then d.memcHook h i new else d
    | .flsh => if r.off = 0x040 then d.flshHook h i old new else d
    | .fery => (if r.off = 0x040 then (d.feryEn h).gateNote h else d).measNote
    | .ldp =>
      if r.off = 0x078 then d.keyHook h i
      else if r.off = 0x120 then
        if new.testBit 0 && !(old.testBit 0) then d.updLd h i fun x => { x with recIndex := 0, recPhase := true } else d
      else if r.off = 0x208 then d.evIrqSend h i new
      else if r.off < 0x080 then d.note
      else d
    | _ => d

/-- Apply words to a half: every value first, then what each register does. -/
def Dev.applyWords (d : Dev) (h : Half) (ws : List (Nat × Word)) : Dev :=
  let was := d
  let d := d.putAll h ws
  (ws.filter fun e => stagedBase e.1 || !(ws.any fun o => o.1 + 1 == e.1)).foldl (fun d e =>
    match keyReg e.1 with
    | none => d
    | some (b, i, r, k) =>
      let page := e.1 / 1024
      d.hook h page b i r (was.elemOf h page b r k) (d.elemOf h page b r k)) d

/-- Apply words at once, journal those that change as COMMITTED and put them into the chart (R354, R359). -/
def Dev.commitWords (d : Dev) (org : Origin) (h : Half) (ws : List (Nat × Word)) : Dev :=
  let olds := ws.map fun e => (e.1, d.storeWord h (e.1 / 1024) (e.1 % 1024 * 4), e.2)
  let d := (d.applyWords h ws).chartPut h ws
  olds.foldl (fun d e => if e.2.1 = e.2.2 then d else d.journal org h (e.1 / 1024) (e.1 % 1024 * 4) rCOMMITTED e.2.1 e.2.2) d

/-! ### Implicit commits (R359) -/

/-- A failed implicit commit: REFUSED, `CHECK_FAILED`, and the origin's `CAST.STATUS` and `CAST.ERR` with TXN 0. -/
def Dev.implicitFail (d : Dev) (org : Origin) (h : Half) (ws : List (Nat × Word)) (bad : Half × Nat) : Dev :=
  let d := ws.foldl (fun d e => d.refuse org h (e.1 / 1024) (e.1 % 1024 * 4) e.2) d
  (d.checkFailed bad.1 (bad.2 / 1024) (bad.2 % 1024 * 4)).castView
    { org := org, state := .abortCheck, staged := 0, txn := 0, err := errWord bad.1 bad.2 }

/-- A register lies in an LD's fence or event view (R76). -/
def inViews (b : Block) (off : Nat) : Bool := b == .ldp && (decide (off < 0x040) || (decide (0x100 ≤ off) && decide (off < 0x300)))

/-- An implicit commit of the words of one register. -/
def Dev.implicitCommit (d : Dev) (org : Origin) (h : Half) (b : Block) (r : Reg) (ws : List (Nat × Word)) : Dev :=
  match d.castCheck h (ws.map fun e => (h, e)) with
  | some bad => d.implicitFail org h ws bad
  | none =>
    if inViews b r.off || !(d.sails h) then d.commitWords org h ws
    else d.upd h fun x => { x with ctl := { x.ctl with
      implicit := x.ctl.implicit ++ [{ org := org, key := (ws.headD (0, 0)).1, vals := ws.map (·.2), after := x.sail.current }] } }

/-- The words of a pending implicit commit. -/
def Implicit.words (i : Implicit) : List (Nat × Word) := i.vals.zipIdx.map fun e => (i.key + e.2, e.1)

/-- Apply a half's implicit commits whose boundary has opened, or all of them (R305). -/
def Dev.implicitApply (d : Dev) (h : Half) (all : Bool) : Dev :=
  let due (i : Implicit) : Bool := all || decide (i.after < (d.half h).sail.current)
  let go := (d.half h).ctl.implicit.filter due
  let d := d.upd h fun x => { x with ctl := { x.ctl with implicit := x.ctl.implicit.filter fun i => !(due i) } }
  go.foldl (fun d i => d.commitWords i.org h i.words) d

/-- An implicit commit of the register at a word is pending in a half (R347). -/
def Dev.implicitWaits (d : Dev) (h : Half) (page off : Nat) : Bool :=
  (d.half h).ctl.implicit.any fun i => i.words.any fun e => e.1 == regKey page off

/-- Forget an origin's read latch, which is one for both windows (R350). -/
def Dev.dropRdLatch (d : Dev) (org : Origin) : Dev :=
  [Half.west, Half.east].foldl (fun d h => d.upd h fun x => { x with ctl := { x.ctl with
    rdLatch := x.ctl.rdLatch.filter fun l => !(l.org == org) } }) d

/-- Read a word as an origin does: the low half of a 64-bit register latches its high half, and the high half is the latch
where the origin's last low-half read was of that register (R350). -/
def Dev.latchRead (d : Dev) (otp : Pair OtpRow) (org : Origin) (h : Half) (page off : Nat) : Word × Dev :=
  let v := d.readWord otp org h page off
  let key := regKey page off
  match keyReg key with
  | none => (v, d)
  | some (_, _, r, k) =>
    if !r.wide then (v, d)
    else if r.base k / 4 = off / 4 then
      (v, (d.dropRdLatch org).upd h fun x => { x with ctl := { x.ctl with
        rdLatch := ⟨org, key, d.readWord otp org h page (off + 4)⟩ :: x.ctl.rdLatch } })
    else
      ((((d.half h).ctl.rdLatch.find? fun l => l.org == org && l.key + 1 == key).map (·.val)).getD v, d)

/-- Send a register value back: over the Ford, or to its origin. -/
def Dev.sendValue (d : Dev) (h : Half) (org : Origin) (addr : Nat) (v : Word) (ford : Bool) : Dev :=
  if ford then d.fordSend h (.regResp org addr v true) else d.emit (.regValue org addr v)

/-- Answer a register read. -/
def Dev.answerRead (d : Dev) (otp : Pair OtpRow) (h : Half) (org : Origin) (addr : Nat) (ford : Bool) : Dev :=
  let r := d.latchRead otp org h (addr / 4096 % 4096) (addr % 4096)
  r.2.sendValue h org addr r.1 ford

/-- Answer the reads that wait for no implicit commit any more, in order. -/
def Dev.answerReads (d : Dev) (otp : Pair OtpRow) (h : Half) : Dev :=
  let q := (d.half h).ctl.reads
  let waits (e : Origin × Nat × Bool) : Bool := d.implicitWaits h (e.2.1 / 4096 % 4096) (e.2.1 % 4096)
  let d := d.upd h fun x => { x with ctl := { x.ctl with reads := x.ctl.reads.filter waits } }
  (q.filter fun e => !(waits e)).foldl (fun d e => d.answerRead otp h e.1 e.2.1 e.2.2) d

/-! ### Transactions (R357, R358) -/

/-- Change the transaction of a slot. -/
def Dev.updTxn (d : Dev) (i : Nat) (f : Txn → Txn) : Dev :=
  { d with cast := { d.cast with slots := lmod d.cast.slots i (Option.map f) } }

/-- Stage words of one register in an OPEN transaction: 256 registers at most, and a later value in place of an earlier one
(R358). -/
def Dev.stageWords (d : Dev) (i : Nat) (org : Origin) (h : Half) (ws : List (Nat × Word)) : Dev :=
  match d.cast.slots.getD i none with
  | none => d
  | some t =>
    let old := ws.all fun e => t.staged.any fun s => s.1 == h && s.2.1 == e.1
    if !old && decide (256 ≤ t.count) then
      let d := ws.foldl (fun d e => d.refuse org h (e.1 / 1024) (e.1 % 1024 * 4) e.2) d
      d.updTxn i fun t => { t with overSize := true }
    else
      let put (l : List (Half × Nat × Word)) (e : Nat × Word) : List (Half × Nat × Word) :=
        if l.any fun s => s.1 == h && s.2.1 == e.1 then l.map fun s => if s.1 == h && s.2.1 == e.1 then (h, e) else s
        else l ++ [(h, e)]
      (d.updTxn i fun t => { t with staged := ws.foldl put t.staged }).castView
        { org := org, state := .opened, staged := 0, txn := t.id }

/-- A transaction's word was changed by another origin since its begin point: the journal entry that names it (R360). A
commit still to be applied counts, without an entry. -/
def Dev.castConflict (d : Dev) (i : Nat) (t : Txn) : Option (Half × Nat × Nat) :=
  let me := d.orgCode t.org
  let hit (e : Half × Nat × Word) (j : JEntry) (start : Nat) : Bool :=
    decide (start < j.jseq) && decide (j.result ≤ 1) && j.half == e.1 && j.page * 1024 + j.word == e.2.1 && !((j.cls, j.org) == me)
  let log (k : Half) : List JEntry := (d.half k).ctl.journal ++ (d.half k).ctl.spill.flatten
  t.staged.findSome? fun e =>
    let w := (log .west).find? fun j => hit e j t.beginW
    let x := (log .east).find? fun j => hit e j t.beginE
    match w.orElse fun _ => x with
    | some j => some (e.1, e.2.1, j.jseq)
    | none =>
      if d.cast.slots.zipIdx.any fun o => o.2 != i && o.1.any fun u => u.committing && u.staged.any fun s => s.1 == e.1 && s.2.1 == e.2.1
      then some (e.1, e.2.1, 0) else none

/-- Halves that a transaction changes. -/
def Txn.touches (t : Txn) (h : Half) : Bool := t.staged.any fun e => e.1 == h

/-- Put a decided transaction into a half (R361 step 5). -/
def Dev.castApplyHalf (d : Dev) (i : Nat) (h : Half) : Dev :=
  match d.cast.slots.getD i none with
  | none => d
  | some t =>
    let ws := (t.staged.filter fun e => e.1 == h).map (·.2)
    let olds := ws.map fun e => (h, e.1, d.storeWord h (e.1 / 1024) (e.1 % 1024 * 4))
    (d.updTxn i fun t => match h with
      | .west => { t with appliedW := true, olds := t.olds ++ olds }
      | .east => { t with appliedE := true, olds := t.olds ++ olds }).applyWords h ws

/-- Apply every decided transaction whose target boundary has opened in a half. -/
def Dev.castApplyDue (d : Dev) (h : Half) : Dev :=
  (List.range 8).foldl (fun d i => match d.cast.slots.getD i none with
    | none => d
    | some t =>
      let done := match h with
        | .west => t.appliedW
        | .east => t.appliedE
      if t.committing && t.voted && !done && decide (t.target ≤ (d.half h).sail.current) && (h == t.coord || t.otherKnows)
          && t.touches h then d.castApplyHalf i h
      else d) d

/-- Both halves that a transaction changes have taken it. -/
def Txn.allApplied (t : Txn) : Bool := (t.appliedW || !(t.touches .west)) && (t.appliedE || !(t.touches .east))

/-- Step 6 of R361: the journal entries of the changed registers and the chart record. -/
def Dev.castFinish (d : Dev) (i : Nat) : Dev :=
  match d.cast.slots.getD i none with
  | none => d
  | some t =>
    if t.committing && t.voted && t.allApplied then
      let newOf (h : Half) (key : Nat) : Word := ((t.staged.find? fun e => e.1 == h && e.2.1 == key).map (·.2.2)).getD 0
      let d := t.olds.foldl (fun d e =>
        let w := newOf e.1 e.2.1
        if w = e.2.2 then d else d.journal t.org e.1 (e.2.1 / 1024) (e.2.1 % 1024 * 4) rCOMMITTED e.2.2 w t.id) d
      let d := [Half.west, .east].foldl (fun d h => d.chartPut h ((t.staged.filter fun e => e.1 == h).map (·.2))) d
      (d.castClose i .committed true).raise t.coord pgCAST .castCommitted t.id
    else d

/-- Last Ferry begins (R305): decided commits apply at once and are recorded; every other transaction is rolled back. -/
def Dev.castLf (d : Dev) : Dev :=
  let d := d.eachHalf fun d h => d.implicitApply h true
  let d := (List.range 8).foldl (fun d i => match d.cast.slots.getD i none with
    | none => d
    | some t =>
      if t.committing && t.voted then
        let d := d.halves.foldl (fun d h =>
          let done := match h with
            | .west => t.appliedW
            | .east => t.appliedE
          if !done && t.touches h then d.castApplyHalf i h else d) d
        d.castFinish i
      else d) d
  d.castCloseAll (fun t => !(t.committing && t.voted)) .rolledBack

/-! ### `CAST.CMD` (R357, R361, R362) -/

/-- Judge the staged values where the decision falls: the first that fails, else a conflict. -/
def Dev.castJudge (d : Dev) (c : Half) (i : Nat) (t : Txn) : Option (CastState × Word × Word) :=
  match d.castCheck c t.staged with
  | some bad => some (.abortCheck, errWord bad.1 bad.2, 0)
  | none => (d.castConflict i t).map fun e => (.abortConflict, errWord e.1 e.2.1, BitVec.ofNat 32 e.2.2)

/-- The two copies of `RTC_ALARM` act as one register (R321): a copy staged alone is staged for the other too. -/
def Dev.alarmPair (d : Dev) (t : Txn) : Txn :=
  if d.single || d.split then t
  else { t with staged := t.staged ++ (t.staged.filter fun e => alarmKey e.2.1 &&
      !(t.staged.any fun f => f.1 == e.1.other && f.2.1 == e.2.1)).map fun e => (e.1.other, e.2) }

/-- `CAST_COMMIT` at the half that coordinates it (R360, R361). -/
def Dev.castCommit (d : Dev) (h : Half) (i : Nat) (t : Txn) : Dev :=
  let t := d.alarmPair t
  let d := d.updTxn i fun _ => { t with committing := true, coord := h }
  if t.staged.isEmpty && !t.overSize then (d.castClose i .committed true).raise h pgCAST .castCommitted t.id
  else if t.overSize then d.castClose i .abortSize false
  else if d.jFull (d.ringHalf h) || (t.touches h.other && d.jFull (d.ringHalf h.other)) then d.castClose i .abortFull false
  else match d.castJudge h i t with
    | some (st, err, js) => d.castClose i st false err js
    | none =>
      let tgt := if d.sails h then d.castTarget h else (d.half h).sail.current
      if t.touches h.other then
        (d.updTxn i fun t => { t with target := tgt }).fordSend h (.castPrepare t.id tgt)
      else
        let d := d.updTxn i fun t => { t with target := tgt, voted := true, otherKnows := true }
        if d.sails h then d else d.castApplyDue h

/-- The next transaction id, which skips 0. -/
def castId (n : Nat) : Nat := if (n + 1) % 65536 = 0 then 1 else (n + 1) % 65536

/-- Show REFUSED or FULL, keeping an OPEN transaction (R357). -/
def Dev.castRefuse (d : Dev) (org : Origin) (h : Half) (v : Nat) (st : CastState) : Dev :=
  (d.journal org h pgCAST 0x040 rREFUSED 0 (loWord v)).castView { org := org, state := st, staged := 0, txn := 0 }

/-- A write of `CAST.CMD` at the half that holds the page. -/
def Dev.castDo (d : Dev) (org : Origin) (h : Half) (v : Nat) : Dev :=
  let op := v % 16
  let may := match org with
    | .ld _ | .hw _ => false
    | _ => true
  let mine := d.cast.slots.findIdx? fun s => s.any fun t => t.org == org
  let cmd (d : Dev) (txn : Nat) : Dev := d.journal org h pgCAST 0x040 rCOMMAND 0 (loWord v) txn
  match op with
  | 1 =>
    if !may || mine.isSome then d.castRefuse org h v .refused
    else match d.cast.slots.findIdx? fun s => s.isNone with
      | none => d.castRefuse org h v .full
      | some i =>
        let id := castId d.cast.count
        let t : Txn := { org := org, id := id, beginW := d.west.ctl.jseq, beginE := d.east.ctl.jseq }
        let d := { d with cast := { d.cast with slots := d.cast.slots.set i (some t), count := id } }
        (cmd d id).castView { org := org, state := .opened, staged := 0, txn := id }
  | 2 => match (d.openTxn org).bind fun i => (d.cast.slots.getD i none).map fun t => (i, t) with
    | some (i, t) => (cmd d t.id).castCommit h i t
    | none => d.castRefuse org h v .refused
  | 3 => match (d.openTxn org).bind fun i => (d.cast.slots.getD i none).map fun t => (i, t) with
    | some (i, t) => (cmd d t.id).castClose i .rolledBack true
    | none => d.castRefuse org h v .refused
  | _ => d.journal org h pgCAST 0x040 rREFUSED 0 (loWord v)

/-- The same with the rules every write meets; a full journal ends a commit ABORT_FULL (R356). -/
def Dev.castLocal (d : Dev) (org : Origin) (e h : Half) (v : Nat) : Dev :=
  match d.gate org e h pgCAST 0x040 (v % 16 != 2) with
  | .pass => d.castDo org h v
  | g => d.applyGate g org e h pgCAST 0x040 (loWord v)

/-- A write of `CAST.CMD` by an origin. -/
def castWrite (org : Origin) (h : Half) (v : Nat) (s : State) : Out :=
  onDevT (fun d =>
    let via := org.via h
    let a := regAddr h pgCAST 0x040
    if d.accBusy via org then d.accWait via [{ org := org, addr := a, val := some (loWord v) }]
    else if via != h && d.fordUp via then d.accSend via org (.regWr org a (loWord v))
    else d.castLocal org via h v) s

/-- `CAST_BEGIN` (R357), `CAST_COMMIT` (R361) and `CAST_ROLLBACK` (R362). -/
def execCastBegin (org : Origin) (h : Half) (s : State) : Out := castWrite org h 1 s
def execCastCommit (org : Origin) (h : Half) (s : State) : Out := castWrite org h 2 s
def execCastRollback (org : Origin) (h : Half) (s : State) : Out := castWrite org h 3 s

/-- `CAST_TIMEOUT` (R362): a transaction still OPEN after 1 s. -/
def execCastTimeout (i : Nat) (s : State) : Out :=
  onDev (fun d => match d.cast.slots.getD i none with
    | some t => if t.committing then d else d.castClose i .abortTimeout false
    | none => d) s

/-! ### The exchange (R361) -/

/-- The slot of a transaction id. -/
def Dev.txnOf (d : Dev) (id : Nat) : Option (Nat × Txn) :=
  (d.cast.slots.findIdx? fun s => s.any fun t => t.id == id && t.committing).bind fun i => (d.cast.slots.getD i none).map fun t => (i, t)

/-- The half can take a commit: no Last Ferry runs there (R305). -/
def Dev.castCan (d : Dev) (h : Half) : Bool := (d.half h).pwr.state == .on || (d.half h).pwr.state == .trim || !((d.half h).pwr.started)

/-- `CAST_PREPARE` (R361): the other half checks and votes. Ids from 65,536 are key-slot changes (R260). -/
def execCastPrepare (h : Half) (s : State) : Out :=
  onDevT (fun d => match d.fordTake h 0 FordMsg.isCastPrepare with
    | some (.castPrepare id _, d) =>
      if 65536 ≤ id then d.keysPrepare h id
      else match d.txnOf id with
        | some (i, t) => d.fordSend h (.castVote id (d.castCan h && (d.castJudge h.other i t).isNone))
        | none => d.fordSend h (.castVote id false)
    | _ => d) s

/-- `CAST_VOTE` (R361): the coordinator decides. -/
def execCastVote (h : Half) (s : State) : Out :=
  onDevT (fun d => match d.fordTake h 0 FordMsg.isCastVote with
    | some (.castVote id ok, d) =>
      if 65536 ≤ id then d.keysVote h id ok
      else match d.txnOf id with
        | some (i, t) =>
          if t.voted then d
          else if ok then
            let d := (d.updTxn i fun t => { t with voted := true }).fordSend h (.castApply id true)
            if d.sails h then d else d.castApplyDue h
          else
            let e := (d.castJudge h i t).getD (.abortCheck, 0, 0)
            (d.castClose i e.1 false e.2.1 e.2.2).fordSend h (.castApply id false)
        | none => d
    | _ => d) s

/-- `CAST_APPLY` (R361): the other half holds the decision for the target boundary. -/
def execCastApply (h : Half) (s : State) : Out :=
  onDevT (fun d => match d.fordTake h 0 FordMsg.isCastApply with
    | some (.castApply id ok, d) =>
      if 65536 ≤ id then (if ok then d.keysDecided id else d)
      else match d.txnOf id with
        | some (i, _) =>
          if ok then
            let d := d.updTxn i fun t => { t with otherKnows := true }
            if d.sails h then d else d.castApplyDue h
          else d
        | none => d
    | _ => d) s

/-- `CAST_BOUNDARY_APPLY` (R359, R361 step 5): a boundary has opened in a half; what was decided for it applies, and reads
that waited for it are answered (R347). -/
def execCastBoundaryApply (h : Half) (s : State) : Out :=
  onDevT (fun d =>
    let d := ((d.implicitApply h false).castApplyDue h).keysApply h
    (d.ciphServe h).answerReads s.otp h) s

/-- `CHART_RECORD_DONE` (R361 step 6): the chart record of a slot's commit is written. -/
def execChartRecordDone (i : Nat) (s : State) : Out := onDev (fun d => d.castFinish i) s

end Sys2Proof.Machine
end

