-- ==== Sys2Proof/Machine/Mgmt.lean ====
section
/-! DEFINITION. Island faults, stopped halves, the management complexes and the Ford's return (chapters 01, 02, 13): the
commands of R17, R24, R64, R290, R328 and R334 to R343, and the BMC bus.
Log entries of notes/assumptions that bear on this file: DEDUCED 40. -/

namespace Sys2Proof.Machine

/-! ### The management complexes (R336, R337, R343) -/

/-- A half's complex is lost: its firmware stops and the transactions opened from it are rolled back (R337). -/
def Dev.mgmtLose (d : Dev) (h : Half) : Dev :=
  (d.upd h fun x => { x with
    boot := { x.boot with running := false }
    mgmt := { x.mgmt with lost := true, takeover := false } }).castDropOrg fun o => match o with
      | .fw k _ => k == h
      | _ => false

/-- An hour in ns. -/
def hourNs : Nat := 3600000000000

/-- A loss that restarts the complex: `RESTART_MAX` of them within one hour hold it in reset (R337). -/
def Dev.mgmtFail (d : Dev) (h : Half) : Dev :=
  if !(d.half h).boot.running then d
  else
    let d := d.mgmtLose h
    let l := d.uptime :: (d.half h).mgmt.losses.filter fun t => decide (d.uptime < t + hourNs)
    let d := d.upd h fun x => { x with mgmt := { x.mgmt with losses := l } }
    if d.fld h pgMGMT 0x048 3 0 ≤ l.length then
      (d.upd h fun x => { x with mgmt := { x.mgmt with held := true } }).raise h pgMGMT .mgmtHeld
    else d

/-- `MGMT_WATCHDOG` (R336): the watchdog has not been fed for 50 ms. -/
def execMgmtWatchdog (h : Half) (s : State) : Out := onDev (fun d => if d.halves.contains h then d.mgmtFail h else d) s

/-- `LOCKSTEP_MISMATCH` (R336). -/
def execLockstepMismatch (h : Half) (s : State) : Out := onDev (fun d => if d.halves.contains h then d.mgmtFail h else d) s

/-- `MGMT_HEARTBEAT_TIMER` (R24): every 10 ms the running complex sends its beat. -/
def execMgmtHeartbeatTimer (h : Half) (s : State) : Out :=
  onDev (fun d =>
    if (d.half h).boot.running then
      let n := ((d.half h).mgmt.beat + 1) % 2 ^ 32
      (d.upd h fun x => { x with mgmt := { x.mgmt with beat := n } }).fordSend h (.heartbeat n)
    else d) s

/-- `MGMT_HEARTBEAT` (R24). -/
def execMgmtHeartbeat (h : Half) (s : State) : Out :=
  onDev (fun d => match d.fordTake h 3 FordMsg.isHeartbeat with
    | some (.heartbeat n, d) => d.upd h fun x => { x with mgmt := { x.mgmt with
        peerBeat := n, peerBeatAt := if n = x.mgmt.peerBeat then x.mgmt.peerBeatAt else d.time } }
    | _ => d) s

/-- `MGMT_PEER_LOST` (R336): the complex of half `h` takes over the other half's pages. -/
def execMgmtPeerLost (h : Half) (s : State) : Out :=
  onDev (fun d =>
    if d.fordUp h && (d.half h).boot.running && d.mgmtLost h.other && !(d.half h).mgmt.takeover then
      ((d.upd h fun x => { x with mgmt := { x.mgmt with takeover := true } }).raise h pgMGMT .mgmtPeerLost).raise h
        pgMGMT .mgmtTakeover
    else d) s

/-- `MGMT_RESTORED` (R337): the restarted complex of half `h` takes its pages back. One that is held, or whose island has
failed, does not restart. -/
def execMgmtRestored (h : Half) (s : State) : Out :=
  onDev (fun d =>
    let x := d.half h
    if x.mgmt.lost && !x.mgmt.held && x.boot.image.isSome && !(x.pwr.failed.getLsbD 19) && !(x.pwr.inReset.getLsbD 19) then
      let d := d.upd h fun x => { x with
        mgmt := { x.mgmt with lost := false, peerBeatAt := d.time }, boot := { x.boot with running := true } }
      (d.upd h.other fun x => { x with mgmt := { x.mgmt with takeover := false } }).raise h pgMGMT .mgmtRestored
    else d) s

/-- `MGMT.CMD` (R343): `RESTART_PEER` releases a held complex of the other half. -/
def Dev.mgmtCmd (h : Half) (v : Nat) (d : Dev) : Option Dev :=
  if v % 16 = 1 ∧ (d.half h.other).mgmt.held then
    some (d.upd h.other fun x => { x with mgmt := { x.mgmt with held := false, losses := [] } })
  else none

/-- `RESTART_PEER` (R343). -/
def execRestartPeer (org : Origin) (h : Half) (s : State) : Out :=
  onDev (fun d => d.command org h pgMGMT 0x058 1 (Dev.mgmtCmd h 1)) s

/-! ### Throttle steps (R381 to R383) -/

/-- The junction temperature of the last round, as its register holds it. -/
def Dev.tj (d : Dev) (h : Half) : Nat := d.fld h pgTHRM 0x044 31 24

/-- Put a throttle step in force: the hardware's journal entry, the event, the count of entries, and the DRAM set of T3,
which does not change during Last Ferry (R169, R383, R386). -/
def Dev.setStep (d : Dev) (h : Half) (n : Nat) : Dev :=
  let was := (d.half h).thrm.step
  if was = n then d
  else
    let held := bnum (d.half h).thrm.held * 128
    let w (k : Nat) : Word := BitVec.ofNat 32 (d.tj h * 2 ^ 24 + k * 256 + held)
    let d := d.upd h fun x => { x with thrm := { x.thrm with step := n, downRounds := 0 } }
    let d := d.journal (.hw 20) h pgTHRM 0x044 rAPPLIED (w was) (w n)
    let lo := 8 * (n - 1)
    let d := if was < n then d.setFld h pgTHRM 0x050 (lo + 7) lo (min 255 (d.fld h pgTHRM 0x050 (lo + 7) lo + 1)) else d
    let d := d.raise h pgTHRM (if was < n then .throttleUp else .throttleDown) (d.tj h) n
    let d := if (d.half h).pwr.state = .lastFerry then d
      else if n = 3 then d.orderSet h true
      else if was = 3 then d.orderSet h (d.half h).dram.freqSel
      else d
    d.note

/-- Set a channel's refresh interval: 1.95 µs when `hot` (R162). -/
def Dev.setHot (d : Dev) (h : Half) (c : Nat) (hot : Bool) : Dev :=
  if (d.chan h c).hot = hot then d
  else (d.updChan h c fun x => { x with hot := hot }).raise h (pgMEMC c) .refreshHot (2 * c) (if hot then 1950 else 3900)

/-! ### Island faults (R17, R328, R335) -/

/-- A half stops: it serves nothing, its LDs are unreachable and its islands are held in reset (R335). -/
def Dev.halfStop (d : Dev) (h : Half) : Dev :=
  let d := (List.range 4).foldl (fun d p => (d.portLinksDown h p).updPort h p fun q => { perstHigh := q.perstHigh }) d
  let d := d.resetLds h fun _ => true
  let d := d.mgmtLose h
  let d := d.upd h fun x => { x with
    pwr := { x.pwr with started := false, inReset := 0x1FFFFF }
    fery := { x.fery.dropSession with link := .off }
    sail := { x.sail with floor := [], strict := [], heldWrites := [], lfReady := false }
    tier := { x.tier with fetching := [], dramReads := [], held := [], promos := [], sinks := [] } }
  d.fordLose

/-- A failed island's block is handled as R328 sets out. The silence of a failed always-on island starts Last Ferry by
`ALWAYS_ON_SILENT`. -/
def Dev.islandFail (d : Dev) (h : Half) (i : Nat) : Dev :=
  if i < 4 then (d.portLinksDown h i).portReset h i
  else if i < 10 then (List.range 4).foldl (fun d k => d.subFail h ((i - 4) * 4 + k)) d
  else if i < 14 then (List.range 8).foldl (fun d k =>
    let c := (i - 10) * 8 + k
    if d.chanState h c = 1 ∨ d.chanState h c = 2 then
      (d.lunsOf h c).foldl (fun d l => d.lunFail h l false) ((d.setChan h c 3).raise h (pgFLSH (i - 10)) .channelFailed c)
    else d) d
  else if i = 14 then d.loseTwin h none
  else if i = 15 then d.fordLose
  else if i < 19 then d.halfStop h
  else if i = 19 then d.mgmtLose h
  else if i = 20 then
    let d := (d.upd h fun x => { x with thrm := { x.thrm with held := true } }).setStep h (max (d.half h).thrm.step 2)
    ((List.range 12).filter fun c => decide (0 < (d.chan h c).dimms)).foldl (fun d c => d.setHot h c true) d
  else d

/-- `ISLAND_FAULT` (R17): an island stays in reset or leaves a handshake unanswered; it is marked failed. -/
def execIslandFault (h : Half) (i : Nat) (s : State) : Out :=
  onDevT (fun d =>
    if !(d.halves.contains h) || 22 ≤ i || (d.half h).pwr.failed.getLsbD i then d
    else
      let d := d.upd h fun x => { x with
        pwr := { x.pwr with failed := x.pwr.failed ||| BitVec.twoPow 22 i }, mgmt := { x.mgmt with faultTime := d.time } }
      (d.raise h pgMGMT .islandFault i).islandFail h i) s

/-- `ISLAND_WAKE_DONE` (R17): held accesses go on. -/
def execIslandWakeDone (h : Half) (i : Nat) (s : State) : Out := onDevT (fun d => d.wake h i) s

/-- `ISLAND_RESET_DONE` (R17): the island leaves reset and held requests resume. A half that has stopped holds its islands
in reset (R335). -/
def execIslandResetDone (h : Half) (i : Nat) (s : State) : Out :=
  onDevT (fun d =>
    let p := (d.half h).pwr
    if p.failed.getLsbD 16 || p.failed.getLsbD 17 || p.failed.getLsbD 18 || !(d.half h).boot.running || 22 ≤ i then d
    else d.upd h fun x => { x with pwr := { x.pwr with inReset := x.pwr.inReset &&& ~~~(BitVec.twoPow 22 i) } }) s

/-! ### The Ford's training at power-up and its return (R290, R334) -/

/-- Train the Ford's modules; with none up it stays, or becomes, LOST. -/
def Dev.fordTry (d : Dev) (lanes : List Nat) : Option Dev :=
  let d := d.fordTrain lanes
  if d.west.ford.up0 || d.west.ford.up1 then
    let d := d.fordBoth fun f => fordFlush f.upState
    some (if d.modulesOn.all fun m => d.west.ford.upOf m then d else d.fordRaise .fordDegraded)
  else none

/-- `FORD_UP` (R290): the initial training ends. -/
def execFordUp (lanes : List Nat) (s : State) : Out :=
  onDev (fun d =>
    if d.single || d.west.ford.state != .training || !d.supv.resetN then d
    else (d.fordTry lanes).getD d.fordLose) s

/-- The halves rejoin (R334): zeroising, held decisions, then the master opens J above both halves' sailings. A half that
has not started joins at its cold start. -/
def Dev.rejoinGo (d : Dev) : Dev :=
  if d.split && d.rejoin == 0 && d.fordUp .west && d.sails .west && d.sails .east then
    let d := d.keysRejoin
    let d := (List.range 8).foldl (fun d i => match d.cast.slots.getD i none with
      | none => d
      | some t =>
        if t.committing && t.voted then
          let d := d.updTxn i fun t => { t with otherKnows := true }
          let o := t.coord.other
          let done := match o with
            | .west => t.appliedW
            | .east => t.appliedE
          (if !done && t.touches o then d.castApplyHalf i o else d).castFinish i
        else d) d
    let j := max d.west.sail.current d.east.sail.current + 1
    ((({ d with rejoin := j } : Dev).masterOpen d.beacon j).note).seal
  else d

/-- `FORD_TRAIN_RETRY` (R334): once a second a LOST Ford retries training. A failed or stopped end cannot train. -/
def execFordTrainRetry (lanes : List Nat) (s : State) : Out :=
  onDevS (fun d =>
    if d.single || d.west.ford.state != .lost || [Half.west, .east].any fun h =>
        (d.half h).pwr.gated.getLsbD 15 || (d.half h).pwr.failed.getLsbD 15 || (d.half h).pwr.failed.getLsbD 16 || (d.half h).pwr.failed.getLsbD 17
          || (d.half h).pwr.failed.getLsbD 18 then d
    else match d.fordTry lanes with
      | none => d
      | some d => d.rejoinGo) s

/-! ### `ACCEPT_LOCAL` (R62 to R64) -/

/-- `ACCEPT_LOCAL` may act: the half refuses access for want of a complete record, has started, and no resync runs into it. -/
def Dev.acceptMay (d : Dev) (h : Half) : Bool :=
  let x := d.half h
  x.pwr.refusing && d.mediaUp h && x.flash.formatted && !x.fery.rcvOn

/-- `SAIL.CMD` (R64, R66). -/
def Dev.sailCmd (h : Half) (v : Nat) (d : Dev) : Option Dev :=
  if v % 16 = 1 && d.acceptMay h then
    let ts := (d.half h).pwr.unsaved
    let d := d.upd h fun x => { x with
      pwr := { x.pwr with refusing := false, unsaved := [] }
      sail := { x.sail with soloFrom := if x.sail.soloFrom = 0 then x.sail.sealed + 1 else x.sail.soloFrom } }
    let d := ts.foldl (fun d t =>
      if (d.tile h t).state = .lost then (d.raise h pgMANF .tileLost (tileNo h t)).eventAt .generalMedia (lineOf h t 0) 3
      else d.eventAt .generalMedia (lineOf h t 0) 4) d
    some ((d.raise h pgSAIL .soloEnter).note)
  else none

/-- What a refused `SAIL.CMD` shows: `CHECK_FAILED` for `ACCEPT_LOCAL`. -/
def Dev.sailNo (h : Half) (v : Nat) (d : Dev) : Dev := if v % 16 = 1 then d.checkFailed h pgSAIL 0x080 else d

/-- `ACCEPT_LOCAL` (R64). -/
def execAcceptLocal (org : Origin) (h : Half) (s : State) : Out :=
  onDevT (fun d => d.command org h pgSAIL 0x080 1 (Dev.sailCmd h 1) false true (Dev.sailNo h 1)) s

/-! ### The BMC's bus (R346, R363) -/

/-- `BMC_BUS_RESET` (R363, R257). -/
def execBmcBusReset (s : State) : Out :=
  onDev (fun d =>
    let d := d.castDropOrg Origin.isBmc
    { d with keys := { d.keys with transports := d.keys.transports.filter fun t => !(Origin.isBmc t.org) } }) s

/-- `SETDASA` (R346): the dynamic address of a die's target. -/
def execSetdasa (h : Half) (addr : BitVec 7) (s : State) : Out :=
  onDev (fun d => match h with
    | .west => { d with i3cWest := addr }
    | .east => if d.single then d else { d with i3cEast := addr }) s

end Sys2Proof.Machine
end

