-- ==== Sys2Proof/Machine/PowerBase.lean ====
section
/-! DEFINITION. Chapter 12's shared operations: the start of Last Ferry (R302 to R306), what a half keeps without power
(R299, R300), the supplies' sequences (R374 to R379), the restart (R324, R325) and the choice of step 7 (R300).
Log entries of notes/assumptions that bear on this file: DEDUCED 42, DEDUCED 43, DEDUCED 44. -/

namespace Sys2Proof.Machine

/-! ### The supervisor's log (R378, R379) -/

/-- A log record as bytes, its CRC last. -/
def LogRec.bytes (r : LogRec) : List Byte :=
  let b := leBytes 2 0x5356 ++ [BitVec.ofNat 8 r.half.num, BitVec.ofNat 8 r.typ] ++ leBytes 4 r.seq ++ leBytes 8 r.tick
    ++ (r.payload ++ List.replicate 44 0).take 44
  b ++ leBytes 4 (crc32c (b.map (·.toNat)))

/-- Write a record into the log ring of 130,048 records from 0x081_0000, or hold it in the save SRAM while G1 is down;
of a COUNTS record only the newest is held. -/
def Dev.logPut (d : Dev) (typ : Nat) (h : Half) (tick : Nat) (payload : List Byte) : Dev :=
  let s := d.supv
  if !(s.good.getLsbD 1) then { d with supv := { s with heldRecs := (s.heldRecs.filter fun r => !(r.typ == typ && (typ == 2 || typ == 3 || typ == 5)))
    ++ [⟨typ, h, 0, tick, payload⟩] } }
  else
    let n := (s.logSeq + 1) % 2 ^ 32
    let d : Dev := { d with
      supv := { s with logSeq := n, logHead := if s.logHead + 64 ≥ 0x810000 + 8323072 then 0x810000 else s.logHead + 64 }
      flash := { d.flash with log := (⟨typ, h, n, tick, payload⟩ :: d.flash.log).take 130048 } }
    d.raise .west pgSUPV .logWritten

/-- Write the records held in the save SRAM, once G1 is good. -/
def Dev.logHeld (d : Dev) : Dev :=
  d.supv.heldRecs.foldl (fun d r => d.logPut r.typ r.half r.tick r.payload) { d with supv := { d.supv with heldRecs := [] } }

/-- The four counters of a rail, as a COUNTS payload holds them. -/
def Dev.railBytes (d : Dev) (rail : Nat) : List Byte :=
  (List.range 4).flatMap fun k => leBytes 2 (smGetD d.supv.counts (rail * 4 + k) 0)

/-- Write the COUNTS triple (R379). -/
def Dev.logCounts (d : Dev) : Dev :=
  let put (d : Dev) (typ : Nat) (rails : List Nat) : Dev := d.logPut typ .west d.rtcNow (rails.flatMap d.railBytes)
  put (put (put d 2 [0, 1, 2, 3, 4]) 3 [5, 6, 7, 8, 9]) 5 [10, 11]

/-! ### A half without power (R299, R300) -/

/-- Registers that stay: those of the always-on island (R299), and the fencing generations and resync cursors that the NAND
system region holds (R216, R222). -/
def keptReg (key : Nat) : Bool :=
  key / 1024 == pgPWRS || key / 1024 == pgSUPV
    || (key / 1024 == pgFERY && [0x058, 0x05C, 0x060, 0x064, 0x068, 0x06C, 0x090, 0x094, 0x0A0, 0x0A4, 0x0A8, 0x0AC].contains (key % 1024 * 4))

/-- What an LD keeps: its labels, extents, dirty shutdown state, and a Sanitize or Secure Erase under way (R80 to R82). -/
def LdCtx.kept (x : LdCtx) : LdCtx :=
  let bg := match x.bg with
    | some .sanitize => x.bg
    | some .secureErase => x.bg
    | _ => none
  { extents := x.extents, shutdownDirty := x.shutdownDirty, dirtyCount := x.dirtyCount, labels := x.labels,
    sanitizeTwin := x.sanitizeTwin, bg := bg, mediaDisabled := bg.isSome && x.mediaDisabled }

/-- A half loses power but for G0, or, `moor`, but for G0 and G5 with its DRAM in self-refresh (R299, R300, R316). -/
def HalfState.lose (x : HalfState) (moor : Bool) : HalfState :=
  let nand : TierHalf := { backed := x.tier.backed, rawTiles := x.tier.rawTiles, ckpt := x.tier.ckpt, ckptMark := x.tier.ckptMark,
                           retired := x.tier.retired, nand := x.tier.nand }
  let f := x.fery.dropSession
  { ctl := { regs := x.ctl.regs.filter fun e => keptReg e.1
             chart := x.ctl.chart, spill := x.ctl.spill, jseq := x.ctl.jseq, moorLog := x.ctl.moorLog
             evRaw := x.ctl.evRaw.filter fun e => e.1 == pgPWRS || e.1 == pgSUPV }
    ford := { state := if x.ford.state == .absent then .absent else .lost }
    sail := { reservation := x.sail.reservation }
    ports := x.ports.map fun p => { perstHigh := p.perstHigh }
    lds := x.lds.map fun e => (e.1, e.2.kept)
    tier := if moor then { nand with manf := x.tier.manf, ftab := x.tier.ftab, dram := x.tier.dram, ageClock := x.tier.ageClock,
                                     streamList := x.tier.streamList, rehome := x.tier.rehome }
            else nand
    ecc := if moor then { diagFrames := x.ecc.diagFrames, diag := x.ecc.diag } else {}
    dram := if moor then { chans := x.dram.chans, trained := x.dram.trained } else {}
    fery := { eff := f.eff, neverSynced := f.neverSynced, srcOn := f.srcOn, srcFull := f.srcFull, srcS := f.srcS
              rcvOn := f.rcvOn, rcvFull := f.rcvFull, rcvS := f.rcvS, handback := f.handback
              staged := if moor then f.staged.filter (·.verified) else [] }
    flash := { x.flash with timeouts := [], formatting := false, features := [],
                            isles := x.flash.isles.map fun i => { chans := i.chans.map fun c => if c = 0 then 0 else 1 } }
    ciph := { records := x.ciph.records, zeroPending := x.ciph.zeroPending
              slots := x.ciph.slots.map fun e => (e.1, { e.2.zero with
                gen := e.2.gen, state := e.2.state, cur := e.2.cur, owner := e.2.owner, walking := e.2.walking }) }
    strap := x.strap
    pwr := { state := if moor then .moored else .off, record := x.pwr.record, moor := if moor then x.pwr.moor else none
             sealFrames := if moor then x.pwr.sealFrames else [], resetIgnored := x.pwr.resetIgnored
             gated := 0x1FFFFF, wakeCause := x.pwr.wakeCause, pwrfailLow := x.pwr.pwrfailLow, inputBack := x.pwr.inputBack } }

/-- A half goes OFF or, `moor`, MOORED: what runs in it ends. -/
def Dev.halfLose (d : Dev) (h : Half) (moor : Bool) : Dev :=
  let d := (d.nandDown h).upd h fun x => x.lose moor
  if d.halves.all fun k => (d.half k).pwr.state != .on && (d.half k).pwr.state != .trim && (d.half k).pwr.state != .lastFerry then
    { d with cast := {}, keys := { sweep := d.keys.sweep, count := d.keys.count }, spdm := [], solo := true, split := false,
             rejoin := 0, gpf := none, otpc := none }
  else d

/-! ### Up and down (R373 to R377) -/

/-- The group that follows in an up-sequence: after G4 the release, or G6 when G5 is still up (R374, R375). 8 is the end. -/
def Dev.nextGroup (d : Dev) (n : Nat) : Nat :=
  if n = 4 then (if d.supv.good.getLsbD 5 then 6 else 5)
  else if n < 6 then n + 1
  else if n = 6 then (if d.fld .west pgSUPV 0x05C 31 31 = 1 then 7 else 8)
  else 8

/-- Drive a group's enable. -/
def Supv.enable (s : Supv) (n : Nat) (on : Bool) : Supv :=
  { s with en := if on then s.en ||| BitVec.twoPow 8 n else s.en &&& ~~~(BitVec.twoPow 8 n) }

/-- Start the up-sequence with G1, as a cold start or a wake (R374, R375); the halves wait in reset for boot. -/
def Dev.upStart (d : Dev) (cause : Nat) : Dev :=
  let d : Dev := { d with supv := ({ d.supv with seq := .up, step := 1, faultHold := false, upPending := false, alarmDue := false
                                                 firstDone := false } : Supv).enable 1 true }
  d.eachHalf fun d h => d.upd h fun x => { x with
    ford := { state := if x.ford.state == .absent then .absent else .training }
    pwr := { x.pwr with gated := 0, inReset := 0x1FFFFF, wakeCause := cause, waking := x.pwr.state == .moored } }

/-- A start by SEQ_IN or an alarm may happen: OFF with G0 good, no trip (R373, R385). -/
def Dev.mayStart (d : Dev) : Bool :=
  d.supv.g0 && !d.supv.tripped && (d.supv.seq == .standby || d.supv.seq == .off)

/-- The wake clears ARMED of the governing copies (R321). -/
def Dev.disarm (d : Dev) : Dev :=
  d.eachHalf fun d h =>
    d.setReg h pgPWRS 0x05C ((d.reg h pgPWRS 0x05C).toNat % 2 ^ 31)

/-- Act on a due alarm in OFF or MOORED (R300, R373): a wake from MOORED starts at once, one from OFF needs SEQ_IN high. -/
def Dev.alarmAct (d : Dev) : Dev :=
  if d.supv.tripped || !d.supv.g0 then d
  else if d.supv.seq = .moored then (d.disarm).upStart 2
  else if d.supv.seq = .standby ∨ d.supv.seq = .off then
    if d.supv.seqIn then (d.disarm).upStart 1 else { d with supv := { d.supv with alarmDue := true } }
  else if d.supv.seq = .down then { d with supv := { d.supv with alarmDue := true } }
  else d

/-- An armed alarm of a governing copy is due (R321). -/
def Dev.alarmIsDue (d : Dev) : Bool := (if d.split then d.halves else [.west]).any fun h =>
  d.fld h pgPWRS 0x05C 31 31 == 1 && decide (d.reg64 h pgPWRS 0x058 % 2 ^ 63 ≤ d.rtcNow)

/-- The down-sequence has ended: OFF, MOORED or TRIPPED, and then a start that waits (R386). -/
def Dev.downEnd (d : Dev) : Dev :=
  let k := d.supv.downKind
  let moored := d.halves.any fun h => (d.half h).pwr.state == .moored
  let d : Dev := { d with supv := { d.supv with step := 0, down := [], firstDone := false
                                                seq := if d.supv.tripped then .tripped else if moored then .moored else .standby } }
  let d := if k = 2 then d else d.logCounts
  let d : Dev := { d with supv := { d.supv with alarmDue := d.supv.alarmDue || d.alarmIsDue } }
  if moored then (if d.supv.alarmDue then d.alarmAct else d)
  else if d.supv.upPending && d.supv.seqIn && d.mayStart && !d.supv.faultHold then d.upStart 0
  else if d.supv.alarmDue then d.alarmAct
  else d

/-- Switch off the next group of a down-sequence, or end it (R376). -/
def Dev.downNext (d : Dev) : Dev := match d.supv.down with
  | [] => d.downEnd
  | n :: _ => { d with supv := ({ d.supv with step := n } : Supv).enable n false }

/-- Start a down-sequence: kind 0 orderly, 1 mooring, 2 immediate (R376). SEQ_OUT falls first, and the groups go from G7
down. The halves that still run lose power. -/
def Dev.downStart (d : Dev) (kind : Nat) : Dev :=
  if d.supv.seq = .down then { d with supv := { d.supv with downKind := max kind d.supv.downKind } }
  else
    let d := d.eachHalf fun d h =>
      if (d.half h).pwr.state = .moored ∧ kind = 1 then d
      else if (d.half h).pwr.state = .off ∧ !(d.half h).boot.running ∧ (d.half h).boot.halt = 0 then
        d.upd h fun x => { x with pwr := { x.pwr with gated := 0x1FFFFF } }
      else d.halfLose h false
    let gs := [7, 6, 5, 4, 3, 2, 1].filter fun n => d.supv.en.getLsbD n && !(kind == 1 && n == 5)
    ({ d with supv := { d.supv with seq := .down, seqOut := false, downKind := kind, down := gs } } : Dev).downNext

/-! ### The restart that every Last Ferry ends in (R324, R325) -/

/-- The halves that a wake or a trigger concerns together: every half, or one while Split (R299). -/
def Dev.together (d : Dev) (h : Half) : List Half := if d.split then [h] else d.halves

/-- Write the open record (R313). -/
def Dev.openRecord (d : Dev) (h : Half) : Dev :=
  d.upd h fun x => { x with pwr := { x.pwr with record := some { voyage := ((x.pwr.record.map (·.voyage)).getD 0 + 1) % 2 ^ 64 } } }

/-- The highest sailing that R36 counts for a half: its complete record's last accepted sailing, the checkpoint mark, the
reservation, and the twin's last applied sailing after a `PROMOTE`. -/
def Dev.topSailing (d : Dev) (h : Half) (accepted : Nat) : Nat :=
  let x := d.half h
  max (max accepted x.tier.ckptMark) (max x.sail.reservation (if d.reg64 h pgFERY 0x068 = 0 then 0 else d.reg64 h pgFERY 0x090))

/-- Take back a complete record (R324): seal its sailings locally as solo, and show it. -/
def Dev.recordBack (d : Dev) (h : Half) (v : Voyage) : Dev :=
  let d := d.upd h fun x => { x with sail := { x.sail with
    sealed := v.lastAccepted, mirrored := v.lastMirrored, soloFrom := v.lastSealed + 1, ledger := [], current := v.lastAccepted } }
  let d := { d with solo := true }
  let d := (d.setReg h pgPWRS 0x06C v.durationUs).setReg h pgPWRS 0x070 v.tiles
  (d.raise h pgSAIL .soloEnter).raise h pgPWRS .lfDone v.voyage

/-- Start re-arming (R325): the evacuated tiles are to be moved out of the reserve; new writes are held. -/
def Dev.rearmStart (d : Dev) (h : Half) : Dev :=
  let n := ((d.half h).tier.manf.filter fun e => e.2.nand.toNat != noNand && (d.stripe h (nandStripe e.2.nand.toNat)).use == 3).length
  (d.upd h fun x => { x with pwr := { x.pwr with rearm := true, rearmLeft := n } }).lfNote h

/-- A half's reservation stands above the sailing it is to open (R408). -/
def Dev.reserveUp (d : Dev) (h : Half) (s : Nat) : Dev :=
  if (d.half h).flash.formatted && decide ((d.half h).sail.reservation ≤ s) then
    d.upd h fun x => { x with sail := { x.sail with reservation := s - 1 + 2 ^ 27, reservePending := none } }
  else d

/-- Open the first sailing once every half that is to share it has started (R36): each half alone while apart, else the
beacon master's for both. `none` marks a half that has not started; `current` is the highest number that R36 counts. -/
def Dev.firstSailing (d : Dev) : Dev :=
  if d.apart then
    let d := d.eachHalf fun d h =>
      if (d.half h).pwr.started && (d.half h).sail.ledger.isEmpty && ((d.half h).pwr.state == .on || (d.half h).pwr.state == .trim) then
        let s := (d.half h).sail.current + 1
        (d.reserveUp h s).masterOpen h s
      else d
    d.rejoinGo
  else if d.split then d
  else if d.halves.all fun h => (d.half h).pwr.started && (d.half h).sail.ledger.isEmpty
      && ((d.half h).pwr.state == .on || (d.half h).pwr.state == .trim) then
    let s := (d.halves.map fun h => (d.half h).sail.current).foldl max 0 + 1
    (d.eachHalf fun d h => d.reserveUp h s).masterOpen d.beacon s
  else d

/-- Apply the host resets recorded during Last Ferry (R85). -/
def Dev.hostResets (d : Dev) (h : Half) : Dev :=
  let l := (d.half h).pwr.hostResets
  let d := d.upd h fun x => { x with pwr := { x.pwr with hostResets := [] } }
  l.foldl (fun d w =>
    if 256 ≤ w then d.resetLds h fun c => c == w - 256
    else if w % 32 = 16 then d.portReset h (w / 32) else d.subReset h (w / 32) (w % 32)) d

/-- A warm return (R324): DRAM and configuration stay; the host links retrain; the open record is written; Last Ferry is
made ready again. -/
def Dev.warmReturn (d : Dev) (hs : List Half) : Dev :=
  let d := hs.foldl (fun d h =>
    let d := d.nandDown h
    let d := match (d.half h).pwr.record with
      | some v => if v.complete then (d.recordBack h v).upd h fun x => { x with sail := { x.sail with
            current := d.topSailing h v.lastAccepted } } else d
      | none => d
    let d := d.openRecord h
    let d := d.upd h fun x => { x with
      ports := x.ports.map fun p => { p with training := p.perstHigh }
      pwr := { x.pwr with state := .on, lfStep := 0, gated := 0, wakeCause := 3, triggers := [], flushed := false, pushed := false } }
    let d := (((d.gateNote h).hostResets h).rearmStart h).raise h pgPWRS .warmReturn
    d.feryTrain h) d
  let d := d.eachHalf fun d h => if (d.half h).tier.undersized then
    d.upd h fun x => { x with sail := { x.sail with ledger := [], sealed := x.sail.current } } else d
  d.firstSailing

/-! ### The end of Last Ferry (R300, R311) -/

/-- The causes after which step 7 goes OFF: thermal critical, supply fault, `POWER_OFF`; one met on the way counts too
(R302, R326, R377). -/
def PwrHalf.offCause (p : PwrHalf) : Bool :=
  [2, 3, 5].contains p.lf.cause || p.triggers.any fun c => c == 2 || c == 3

/-- A warm return follows (R300). -/
def Dev.warmOk (d : Dev) (h : Half) : Bool :=
  let p := (d.half h).pwr
  p.inputBack && d.fld h pgPWRS 0x040 2 2 == 1 && !p.offCause && !p.resetPending && ((p.record.map (·.complete)).getD false)

/-- Mooring follows (R300). -/
def Dev.moorOk (d : Dev) (h : Half) : Bool :=
  let p := (d.half h).pwr
  d.fld h pgPWRS 0x040 3 3 == 1 && d.supv.pg.getLsbD 0 && d.supv.pg.getLsbD 5 && !p.offCause && !p.resetPending
    && ((p.record.map (·.complete)).getD false)

/-- A seal line (R318). -/
def sealLine (voyage f rank bank : Nat) : SLine :=
  let b := leBytes 8 0x4C414553524F4F4D ++ leBytes 8 voyage ++ leBytes 4 f ++ leBytes 4 (frameSub f * 2 ^ 16 + rank * 256 + bank)
    ++ (List.range 40).map fun k => BitVec.ofNat 8 ((k + 24) ^^^ 0x5A)
  encodeLine (0x3FFF00000000 + f) (BitVec.ofNat 512 (ofLe b)) (mkTags (BitVec.ofNat 18 voyage) 1 0 false false 0xF false 0)

/-- Logical rank and bank of a frame (R94, R158). -/
def Dev.frameRankBank (d : Dev) (h : Half) (f : Nat) : Nat × Nat :=
  let rb := frameLocal f % (d.ranks h (frameSub f / 2) * 32)
  (rb / 32, rb % 32)

/-- `rws` registers of a half, as the mooring list holds them (R317). -/
def Dev.rwsRegs (d : Dev) (h : Half) : SMap Word :=
  (d.half h).ctl.regs.filter fun e => match keyReg e.1 with
    | some (_, _, r, _) => r.fields.any fun f => f.acc == .rws
    | none => false

/-- Enter MOORED (R316): the mooring list, the seal lines, then self-refresh. -/
def Dev.moorHalf (d : Dev) (h : Half) : Dev :=
  let v := ((d.half h).pwr.record.map (·.voyage)).getD 0
  let d := (d.half h).pwr.sealFrames.foldl (fun d f =>
    let rb := d.frameRankBank h f
    d.upd h fun x => { x with tier := { x.tier with dram := smPut x.tier.dram (f * 1024) (fmtLine f 0) (sealLine v f rb.1 rb.2) } }) d
  let d := d.upd h fun x => { x with pwr := { x.pwr with moor := some { voyage := v, rws := d.rwsRegs h, chans := x.dram.chans } } }
  d.halfLose h true

/-- The half is in service or runs Last Ferry. -/
def Dev.live (d : Dev) (h : Half) : Bool :=
  let p := (d.half h).pwr
  p.state == .lastFerry || ((p.state == .on || p.state == .trim) && d.mediaUp h)

/-- Step 7 of halves whose record is written: a warm return, which waits for RESET_N, MOORED, or OFF (R300, R397). A half
whose always-on island has failed is held in reset with its power on (R328). -/
def Dev.stepSeven (d : Dev) (hs : List Half) : Dev :=
  if hs.all fun h => d.warmOk h then (if d.supv.resetN then d.warmReturn hs else d)
  else
    let moor := hs.all fun h => d.moorOk h
    let again := hs.any fun h => (d.half h).pwr.resetPending
    let d := hs.foldl (fun d h =>
      if (d.half h).pwr.failed.getLsbD 21 then
        d.upd h fun x => { x with pwr := { x.pwr with inReset := 0x1FFFFF, started := false } }
      else if moor then d.moorHalf h else d.halfLose h false) d
    let d : Dev := if again then { d with supv := { d.supv with upPending := true } } else d
    if d.halves.all fun h => !(d.live h) then
      d.downStart (if d.halves.any fun h => (d.half h).pwr.state == .moored then 1 else 0)
    else d

/-- Step 7 starts when every half that runs Last Ferry together has written its record. -/
def Dev.lfJoin (d : Dev) (h : Half) : Dev :=
  let hs := (d.together h).filter fun k => (d.half k).pwr.state == .lastFerry
  if !hs.isEmpty && hs.all fun k => (d.half k).pwr.lfStep == 7 then d.stepSeven hs else d

/-! ### The start of Last Ferry (R302 to R306) -/

/-- A message that step 1 lets finish: an opened sailing's, a request's, an answer's. -/
def Dev.lfMsg (d : Dev) (h : Half) (m : FordMsg) : Dev :=
  match m with
  | .beaconOpen n => (d.boundary h n).openBoth h n
  | .beaconEcho n => d.openBoth h n
  | .sealReady n => d.upd h fun x => { x with sail := { x.sail with
      ledger := x.sail.ledger.map fun e => if e.s = n then { e with otherReady := true } else e } }
  | .sibVerified n => d.setReg64 h pgFERY 0x098 (max n (d.reg64 h pgFERY 0x098))
  | .memRd line ld tag => d.arrive h { src := .ford tag, ld := ld, line := line, kind := .read }
  | .memWr line ld tag data => d.arrive h { src := .ford tag, ld := ld, line := line, kind := .write data fullMask false }
  | .memWrp line ld tag data mask => d.arrive h { src := .ford tag, ld := ld, line := line, kind := .write data mask false }
  | .memRdData tag stamp poison fill data => match d.crossTake h tag with
    | some (c, d) => d.floor h { src := c.src, ld := c.ld, sailing := if fill then 0 else resolve 18 (d.stampTop h) stamp
                                 data := some data, poison := poison, marks := !fill }
    | none => d
  | .memWrAck tags => tags.foldl (fun d tag => match d.crossTake h tag with
    | some (c, d) => d.crossAccepted h c
    | none => d) d
  | _ => d

/-- Take in what the Ford still carries of a class. -/
def Dev.fordDrain (h : Half) (cls : Nat) : Nat → Dev → Dev
  | 0, d => d
  | n + 1, d => match d.fordTake h cls fun _ => true with
    | some (m, d) => Dev.fordDrain h cls n (d.lfMsg h m)
    | none => d

/-- Drain a class in the halves that stop. -/
def Dev.lfDrain (d : Dev) (hs : List Half) (cls : Nat) : Dev :=
  hs.foldl (fun d h =>
    let f := (d.half h.other).ford
    Dev.fordDrain h cls (f.txq.length + f.waitq.length) d) d

/-- Reads and writes that the fabric has taken finish (R305): fetched entries, then the bursts of DRAM. -/
def Dev.fabricFinish (d : Dev) (h : Half) : Dev :=
  let q := (d.half h).tier.fetching
  let d := d.upd h fun x => { x with tier := { x.tier with fetching := [] } }
  let d := q.foldl (fun d r => (d.mcFill h (lineTile r.line)).go h r true) d
  (List.range 2).foldl (fun d _ =>
    let q := (d.half h).tier.dramReads
    let d := d.upd h fun x => { x with tier := { x.tier with dramReads := [] } }
    q.foldl (fun d r => d.burstDone h r {}) d) d

/-- Held reads are answered with poison, and writes that are not accepted are dropped (R111, R305). -/
def Dev.heldDrop (d : Dev) (h : Half) : Dev :=
  let q := (d.half h).tier.held ++ ((d.half h).ecc.repairs.flatMap fun r => r.held) ++ (d.half h).tier.fetching ++ (d.half h).tier.dramReads
  let d := d.upd h fun x => { x with
    sail := { x.sail with heldWrites := [] }
    ecc := { x.ecc with repairs := [], heals := [] }
    tier := { x.tier with held := [], fetching := [], dramReads := [] } }
  (q.filter fun r => !r.isWrite).foldl (fun d r => d.respondPoison h r (d.half h).sail.current) d

/-- Promotions in flight end: the tile is NAND_ONLY again, and one being re-homed stays DARK (R111, R342). -/
def Dev.promoDrop (d : Dev) (h : Half) : Dev :=
  let ps := (d.half h).tier.promos
  let d := ps.foldl (fun d p =>
    let d := match p.frame with
      | some f => d.freeFrame h f
      | none => d
    if !p.rehome && (d.tile h p.tile).state = .rising then d.setTile h p.tile { d.tile h p.tile with state := .nandOnly, frame := 0 }
    else d) d
  d.upd h fun x => { x with
    tier := { x.tier with promos := [], rehome := x.tier.rehome ++ (ps.filter (·.rehome)).map (·.tile) }
    fery := { x.fery with recalls := [], recallWait := [] } }

/-- The DRAM channels as step 1 leaves them (R176): a change of set finishes, self-refresh ends, a drift retrain is
abandoned. -/
def Dev.dramLf (d : Dev) (h : Half) : Dev :=
  let d := match (d.half h).dram.changing with
    | some (i, b) => [2 * i, 2 * i + 1].foldl (fun (d : Dev) c => d.updChan h c fun x => { x with setB := b }) d
    | none => d
  let d := d.upd h fun x => { x with dram := { x.dram with changing := none, nextOrder := none } }
  (List.range 24).foldl (fun d k => (d.subWake h k).updSub h k fun s =>
    { s with state := if s.state = .freqChange then .up else s.state, driftSlices := 0 }) d

/-- Steps 1 and 2 of Last Ferry in the halves that trigger (R305, R306). A half that has stopped cannot run it (R335). -/
def Dev.lfBegin (d : Dev) (hs : List Half) (cause : Nat) : Dev :=
  let d := (d.lfDrain hs 0).lfDrain hs 1
  let d := hs.foldl (fun d h => d.fabricFinish h) d
  let d := d.lfDrain hs 2
  let d := hs.foldl (fun d h => (d.heldDrop h).promoDrop h) d
  let d := d.lfDrain hs 2
  let d := hs.foldl (fun d h => ((d.openBoth h (d.half h).sail.current).crossLost h).dramLf h) d
  let d := d.castLf
  let d := hs.foldl (fun d h => (d.nandAbort h).ciphAbort h) d
  let d := hs.foldl (fun d h => (d.ctxs h).foldl (fun d c => (d.dropFences h c).updLd h c fun x => { x with inFlight := 0, mboxBusy := false }) d) d
  let d := hs.foldl (fun d h => d.upd h fun x => { x with
    ports := x.ports.map fun p => { p with links := List.replicate 4 {}, training := false }
    sail := { x.sail with strict := [], floor := [], holding := false } }) d
  let solo := d.solo
  let split := d.split
  let t := d.time
  let d := hs.foldl (fun d h => d.closeSailing h) d
  hs.foldl (fun d h => d.upd h fun x => { x with pwr := { x.pwr with
    state := .lastFerry, lfStep := 3, rideThrough := false, flushed := false, pushed := false, triggers := [], rearm := false
    lf := { voyage := (x.pwr.record.map (·.voyage)).getD 0, cause := cause, lastAccepted := x.sail.current
            lastSealed := x.sail.sealed, lastMirrored := x.sail.mirrored, triggerTime := t
            flags := BitVec.ofNat 8 (bnum solo * 2 + bnum split * 4) } } }) d

/-- A trigger of Last Ferry (R302, R303): the halves in service start; one that already runs it records the trigger. -/
def Dev.startLf (d : Dev) (cause : Nat) (hs : List Half) : Dev :=
  let on (h : Half) : Bool := ((d.half h).pwr.state == .on || (d.half h).pwr.state == .trim) && d.mediaUp h
  let d := hs.foldl (fun d h => if (d.half h).pwr.state = .lastFerry then
    d.upd h fun x => { x with pwr := { x.pwr with triggers := x.pwr.triggers ++ [cause] } } else d) d
  let go := hs.filter on
  if go.isEmpty then d else d.lfBegin go cause

end Sys2Proof.Machine
end

