-- ==== Sys2Proof/Machine/Power.lean ====
section
/-! DEFINITION. The power states and Last Ferry (chapter 12): its triggers (R302, R303), steps 3 to 7 (R307 to R311), the
alarm (R321) and the return to service (R325).
Log entries of notes/assumptions that bear on this file: DEDUCED 44. -/

namespace Sys2Proof.Machine

/-! ### Triggers (R302, R303, R326) -/

/-- A trigger: Last Ferry, or, before the device is in service, an orderly down-sequence (R302, R386). -/
def Dev.trigger (d : Dev) (cause : Nat) (hs : List Half) : Dev :=
  if hs.any fun h => d.live h then d.startLf cause hs
  else if (d.halves.any fun h => d.live h) || !([SupvSeq.up, .holdRelease, .on].contains d.supv.seq) then d
  else d.downStart 0

/-- Change the power state's record of each half. -/
def Dev.eachPwr (d : Dev) (f : PwrHalf → PwrHalf) : Dev := d.eachHalf fun d h => d.upd h fun x => { x with pwr := f x.pwr }

/-- `PWRFAIL_N_FALL` (R303): bussed to both dies; MOORED ignores it (R320). -/
def execPwrfailNFall (s : State) : Out :=
  onDev (fun d =>
    let up := [SupvSeq.up, .holdRelease, .on].contains d.supv.seq
    d.eachPwr fun p => if p.state = .moored then p else { p with pwrfailLow := true, rideThrough := up, inputBack := false }) s

/-- `PWRFAIL_GLITCH` (R303): a low pulse that ends before the ride-through does. -/
def execPwrfailGlitch (s : State) : Out :=
  onDev (fun d => d.eachHalf fun d h =>
    if (d.half h).pwr.rideThrough then
      let d := d.upd h fun x => { x with pwr := { x.pwr with pwrfailLow := false, rideThrough := false, inputBack := true } }
      (d.sat h pgPWRS 0x078).raise h pgPWRS .pwrfailGlitch
    else d) s

/-- `RIDE_THROUGH_EXPIRY` (R302). -/
def execRideThroughExpiry (s : State) : Out :=
  onDevT (fun d =>
    let hs := d.halves.filter fun h => (d.half h).pwr.rideThrough && (d.half h).pwr.pwrfailLow
    if hs.isEmpty then d
    else (d.eachPwr fun p => { p with rideThrough := false }).trigger 0 hs) s

/-- `INPUT_POWER_RETURN` (R326). -/
def execInputPowerReturn (s : State) : Out :=
  onDev (fun d => d.eachPwr fun p =>
    if p.rideThrough then p else { p with pwrfailLow := false, inputBack := true }) s

/-- `PWRS.CMD` (R302, R326, R327): refused while Last Ferry runs, and for other values. -/
def Dev.pwrsCmd (h : Half) (v : Nat) (d : Dev) : Option Dev :=
  let hs := d.together h
  if (v % 16 = 1 ∨ v % 16 = 2) ∧ !(hs.any fun k => d.inLf k) then some (d.trigger (v % 16 + 3) hs) else none

/-- `POWER_DOWN` (R302). -/
def execPowerDown (org : Origin) (h : Half) (s : State) : Out :=
  onDevT (fun d => d.command org h pgPWRS 0x04C 1 (Dev.pwrsCmd h 1)) s

/-- `POWER_OFF` (R302). -/
def execPowerOff (org : Origin) (h : Half) (s : State) : Out :=
  onDevT (fun d => d.command org h pgPWRS 0x04C 2 (Dev.pwrsCmd h 2)) s

/-- `ALWAYS_ON_SILENT` (R328): the complex finds the always-on island silent. -/
def execAlwaysOnSilent (h : Half) (s : State) : Out :=
  onDevT (fun d =>
    if !((d.half h).boot.running) then d
    else (d.upd h fun x => { x with pwr := { x.pwr with failed := x.pwr.failed ||| BitVec.twoPow 22 21 } }).startLf 3
      (d.together h)) s

/-! ### Steps 3 and 4 (R307) -/

/-- Steps 3 and 4 have ended: step 5. -/
def Dev.lfFive (d : Dev) (h : Half) : Dev := d.upd h fun x =>
  if x.pwr.flushed && x.pwr.pushed then { x with pwr := { x.pwr with lfStep := 5 } } else x

/-- `LF_FLUSH_DONE` (R307): every dirty Landing line but those of DARK tiles, and the eviction buffer, are in DRAM. -/
def execLfFlushDone (h : Half) (s : State) : Out :=
  onDev (fun d =>
    let p := (d.half h).pwr
    if p.state != .lastFerry || p.lfStep != 3 || p.flushed then d
    else
      let d := d.landFlush h fun _ => true
      let ts := (((d.half h).land.buf.map fun b => lineTile b.line).filter fun t => (d.tile h t).state != .dark).dedup
      let d := ts.foldl (fun d t => d.bufIssueTile h t) d
      (d.upd h fun x => { x with pwr := { x.pwr with flushed := true } }).lfFive h) s

/-- Lines of a stream message. -/
def StreamMsg.lineCount : StreamMsg → Nat
  | .mirror _ _ _ _ ls => ls.length
  | _ => 0

/-- `LF_PUSH_END` (R307): what credit has not let out is counted, and the lanes go idle. -/
def execLfPushEnd (h : Half) (s : State) : Out :=
  onDev (fun d =>
    let p := (d.half h).pwr
    if p.state != .lastFerry || p.lfStep != 3 || p.pushed then d
    else
      let n := lsum ((d.half h).fery.stream.map StreamMsg.lineCount)
      let d := d.upd h fun x => { x with
        fery := { x.fery.dropSession with link := .off, lanesUp := 0, stopSending := true, synced := false }
        pwr := { x.pwr with pushed := true, lf := { x.pwr.lf with unsent := n } } }
      d.lfFive h) s

/-! ### Step 5: evacuation (R246, R308) -/

/-- Reserve pages of a LUN already used. -/
def Dev.reserveUse (d : Dev) (h : Half) (l : Nat) : Nat :=
  lsum (((d.reserveStripes h).filter fun e => stripeLun e.1 == l).map fun e => e.2.nextPage)

/-- A stripe of the reserve that takes another page: open, or ready. -/
def Dev.reserveOpen (d : Dev) (h : Half) (l : Nat) : Option (Nat × Stripe) :=
  let q := (d.reserveStripes h).filter fun e => stripeLun e.1 == l && e.2.slc
  (q.find? fun e => e.2.state == .opened).orElse fun _ => q.find? fun e => e.2.state == .reserve && e.2.ready

/-- The next page of step 5: in the reserve, on the LUN of which least is used; then, in native mode, in erased pool stripes,
which sets OVERFLOW (R246, R326). -/
def Dev.lfPage (d : Dev) (h : Half) : Option (Nat × Dev) :=
  let ls := (d.half h).flash.luns.filter fun l => d.lunOk h l && (d.reserveOpen h l).isSome
  let best := ls.foldl (fun b l => match b with
    | none => some l
    | some m => if d.reserveUse h l < d.reserveUse h m then some l else some m) none
  match best with
  | some l => match d.reserveOpen h l with
    | some (k, s) =>
      if s.state = .opened then some (d.takePage h k s)
      else
        let d := d.openStripe h k 3 s
        some (d.takePage h k (d.stripe h k))
    | none => none
  | none => (d.sinkPage h 3).map fun q => (q.1, q.2.upd h fun x => { x with pwr := { x.pwr with
      lf := { x.pwr.lf with flags := x.pwr.lf.flags ||| 8 } } })

/-- What is still to be evacuated and what the programs report: failed programs by ordinal with the plane named, the
ordinal of the next program, and whether room has run out. -/
structure Evac where
  fails : SMap Nat
  n : Nat := 0
  full : Bool := false

/-- Program one tile, continuing on another stripe after a failure (R243). A failed stripe turns BAD after start-up. -/
def Dev.evacPage (h : Half) : Nat → Evac → Dev → Option Nat × Evac × Dev
  | 0, e, d => (none, e, d)
  | k + 1, e, d => match d.lfPage h with
    | none => (none, { e with full := true }, d)
    | some (a, d) =>
      let e1 := { e with n := e.n + 1 }
      match smGet e.fails e.n with
      | none => (some a, e1, d)
      | some p =>
        let d := d.setStripe h (nandStripe a) { d.stripe h (nandStripe a) with state := .full, failed := some (p % 4) }
        let d := d.upd h fun x => { x with pwr := { x.pwr with lf := { x.pwr.lf with programFails := x.pwr.lf.programFails + 1 } } }
        Dev.evacPage h k e1 d

/-- Part 1 for one tile: its image at the last accepted sailing, then DRAM_CLEAN with the reserve copy. -/
def Dev.evacTile (h : Half) (q : Evac × Dev) (t : Nat) : Evac × Dev :=
  let p := q.2.tileImage h t
  let r := Dev.evacPage h (q.1.fails.length + 1) q.1 p.2
  match r.1 with
  | none => (r.2.1, r.2.2)
  | some a =>
    let d := r.2.2.putNand h a p.1
    let old := (d.tile h t).nand.toNat
    let d := d.setTile h t { d.tile h t with state := .dramClean, nand := BitVec.ofNat 36 a, stream := false }
    let d := (d.nandStale h old).nandLive h a
    (r.2.1, d.upd h fun x => { x with
      tier := { x.tier with sinks := x.tier.sinks.filter fun k => k.tile != t, streamList := x.tier.streamList.filter fun u => u != t }
      pwr := { x.pwr with lf := { x.pwr.lf with tiles := x.pwr.lf.tiles + 1 } } })

/-- Pages of parts 2 and 3, whose contents the record and the checkpoint hold. -/
def Dev.evacPages (h : Half) (n : Nat) (q : Evac × Dev) : Evac × Dev :=
  (List.range n).foldl (fun q _ =>
    let r := Dev.evacPage h (q.1.fails.length + 1) q.1 q.2
    (r.2.1, r.2.2)) q

/-- Dirty Landing lines of DARK tiles, for line records (R307, R308). -/
def Dev.darkLines (d : Dev) (h : Half) : List (Nat × SLine) :=
  ((d.half h).land.slots.map fun e => (landLine h e.1 e.2.tag, e.2)).filterMap fun e =>
    if e.2.dirty && (d.tile h (lineTile e.1)).state == .dark then some (e.1, e.2.line) else none

/-- The seal frame of a bank (R316): its lowest free frame, else that of its DRAM_CLEAN tile of greatest age, pinned ones
last, which is evicted. -/
def Dev.sealFrame (h : Half) (k : Nat) (d : Dev) (rb : Nat) : Dev :=
  let nb := d.ranks h (k / 2) * 32
  let keep (f : Nat) (d : Dev) : Dev := d.upd h fun x => { x with pwr := { x.pwr with sealFrames := x.pwr.sealFrames ++ [f] } }
  match d.bankFrame h k rb .freeFmt, d.bankFrame h k rb .freeRaw with
  | some f, some g => keep (min f g) d
  | some f, none => keep f d
  | none, some g => keep g d
  | none, none =>
    let l := ((d.half h).tier.ftab.filter fun e => frameSub e.1 == k && frameLocal e.1 % nb == rb && e.2.state == .used
      && (d.tile h e.2.tile).state == .dramClean).map fun e => (e.1, e.2.tile)
    let key (t : Nat) : Nat := (if (d.tile h t).pinned then 0 else 256) + d.ageOf h t
    match l.foldl (fun b e => match b with
      | none => some e
      | some g => if key g.2 < key e.2 then some e else some g) (none : Option (Nat × Nat)) with
    | none => d
    | some (f, t) => keep f (d.evict h t)

/-- The seal frames of a half (R316). -/
def Dev.sealAll (d : Dev) (h : Half) : Dev :=
  let d := d.upd h fun x => { x with pwr := { x.pwr with sealFrames := [] } }
  if d.fld h pgPWRS 0x040 3 3 = 0 then d
  else ((d.subs h).filter fun k => (d.sub h k).state == .up).foldl (fun d k =>
    (List.range (d.ranks h (k / 2) * 32)).foldl (Dev.sealFrame h k) d) d

/-- Switch off islands of a half as their steps end (R308). -/
def Dev.lfGate (d : Dev) (h : Half) (is : List Nat) : Dev := d.upd h fun x => { x with pwr := { x.pwr with
  gated := is.foldl (fun g i => g ||| BitVec.twoPow 22 i) x.pwr.gated } }

/-- `LF_EVACUATE_DONE` (R308): `fails` names the failed programs by ordinal, with the plane. -/
def execLfEvacuateDone (h : Half) (fails : SMap Nat) (s : State) : Out :=
  onDev (fun d =>
    if (d.half h).pwr.state != .lastFerry || (d.half h).pwr.lfStep != 5 then d
    else
      let ts := ((d.half h).tier.manf.filter fun e => e.2.state == .dramDirty || e.2.state == .sinking).map (·.1)
      let q := ts.foldl (Dev.evacTile h) ({ fails := fails }, d)
      let ls := q.2.darkLines h
      let k := (ls.length + 815) / 816
      let q := Dev.evacPages h k q
      let d := q.2.sealAll h
      let m := (d.half h).tier.changed.length
      let q := Dev.evacPages h m (q.1, d)
      let used := ((q.2.half h).flash.stripes.filter fun e => e.2.use == 3 && e.2.state != .reserve && e.2.state != .stale).length
      let full := q.1.full
      let d := q.2.upd h fun x => { x with
        tier := if full then x.tier else { x.tier with ckpt := x.tier.manf, ckptMark := x.sail.current, changed := [], sinks := [] }
        pwr := { x.pwr with
          lfStep := 6
          lf := { x.pwr.lf with complete := !full, deltas := m, lineTiles := k, lines := ls, stripes := used } } }
      d.lfGate h [0, 1, 2, 3, 14]) s

/-! ### Steps 6 and 7 (R310 to R312) -/

/-- Stripes that the bitmap lists: ERASED, or VOUCHED, and reserve stripes that are erased and unprogrammed (R244, R312). -/
def Dev.erasedStripes (d : Dev) (h : Half) : List Nat :=
  ((d.half h).flash.stripes.filter fun e =>
    e.2.state == .erased || e.2.state == .vouched || e.2.state == .reserve).map (·.1)

/-- `VOYAGE_RECORD_WRITTEN` (R310): `copies` written of two, `us` microseconds since step 1; then step 7. -/
def execVoyageRecordWritten (h : Half) (copies us : Nat) (s : State) : Out :=
  onDevT (fun d =>
    let p := (d.half h).pwr
    if p.state != .lastFerry || p.lfStep != 6 then d
    else
      let v := { p.lf with durationUs := us, bitmap := d.erasedStripes h }
      let ok := v.complete && decide (0 < copies)
      let d := d.upd h fun x => { x with pwr := { x.pwr with lfStep := 7, record := if ok then some v else x.pwr.record } }
      let warm := d.warmOk h
      let fl := v.flags ||| BitVec.ofNat 8 (1 + 16 * bnum warm + 32 * bnum (!warm && d.moorOk h))
      let d := if ok then d.upd h fun x => { x with pwr := { x.pwr with record := some { v with flags := fl } } } else d
      (d.lfGate h [10, 11, 12, 13, 16]).lfJoin h) s

/-! ### The alarm (R321) -/

/-- A half that is MOORED or OFF alone, while the supplies stand for the other, starts again by its own alarm (R299, R321). -/
def Dev.wakeHalf (d : Dev) (h : Half) : Dev :=
  (d.setReg h pgPWRS 0x05C ((d.reg h pgPWRS 0x05C).toNat % 2 ^ 31)).upd h fun x => { x with
    pwr := { x.pwr with state := .on, gated := 0, inReset := 0x1FFFFF, waking := x.pwr.state == .moored
                        wakeCause := if x.pwr.state = .moored then 2 else 1 } }

/-- `RTC_ALARM` (R321): `RTC_NOW` reaches an armed alarm tick; the clocks stand no earlier than it. -/
def execRtcAlarm (h : Half) (s : State) : Out :=
  onDev (fun d =>
    let g := if d.split then h else .west
    let v := d.reg64 g pgPWRS 0x058
    if !(d.halves.contains h) || !d.supv.g0 || v < 2 ^ 63 then d
    else
      let ns := (v % 2 ^ 63 * 1000000000 + 32767) / 32768 - d.uptime
      let d : Dev := { d with uptime := d.uptime + ns, time := d.time + ns }
      let st := (d.half h).pwr.state
      if d.split && d.supv.seq == .on && (st == .moored || st == .off) then d.wakeHalf h else d.alarmAct) s

/-! ### Re-arming and idle gating (R301, R325) -/

/-- Move one evacuated tile out of the reserve; none while no page is to be had. -/
def Dev.rearmTile (h : Half) (q : Option Dev) (t : Nat) : Option Dev :=
  q.bind fun d =>
    let a := (d.tile h t).nand.toNat
    (d.sinkPage h 0).map fun r =>
      let d := match r.2.nandImg h a with
        | some i => r.2.putNand h r.1 i
        | none => r.2
      ((d.setTile h t { d.tile h t with nand := BitVec.ofNat 36 r.1 }).nandStale h a).nandLive h r.1

/-- Erase a stripe of the reserve, or give back a pool stripe that Last Ferry took; a failed one turns BAD (R243, R325). -/
def Dev.rearmErase (h : Half) (d : Dev) (k : Nat) : Dev :=
  let s := d.stripe h k
  match s.failed with
  | some p => d.markBad h k p
  | none =>
    if s.slc then (if s.state = .reserve ∧ s.ready then d else d.erased h k true)
    else (d.setStripe h k { s with use := 0 }).erased h k false

/-- `REARM_DONE` (R325). -/
def execRearmDone (h : Half) (s : State) : Out :=
  onDevT (fun d =>
    if !((d.half h).pwr.rearm) then d
    else
      let ts := ((d.half h).tier.manf.filter fun e => e.2.nand.toNat != noNand && e.2.state != .blank
        && (d.stripe h (nandStripe e.2.nand.toNat)).use == 3).map (·.1)
      match ts.foldl (Dev.rearmTile h) (some d) with
      | none => d
      | some d =>
        let d := ((d.reserveStripes h).map (·.1)).foldl (Dev.rearmErase h) d
        let d := d.upd h fun x => { x with pwr := { x.pwr with rearm := false, rearmLeft := 0 } }
        (d.lfNote h).raise h pgPWRS .rearmDone) s

/-- `DDR_IDLE_GATE` (R301): island 4 to 9. -/
def execDdrIdleGate (h : Half) (i : Nat) (s : State) : Out :=
  onDev (fun d =>
    let st := (List.range 4).map fun k => (d.sub h ((i - 4) * 4 + k)).state
    if i < 4 || 9 < i || d.fld h pgPWRS 0x040 15 8 == 0 || !(st.contains .selfRefresh)
        || !(st.all fun x => [SubState.absent, .failed, .disabled, .selfRefresh].contains x) then d
    else d.setGates h ((d.half h).pwr.gated ||| BitVec.twoPow 22 i)) s

end Sys2Proof.Machine
end

