-- ==== Sys2Proof/Machine/Cold.lean ====
section
/-! DEFINITION. A cold start or a wake under firmware: population and training (R154 to R158, R171, R172), the self-test
(R150), the chart (R364), the Manifest's restoration (R64, R103, R323, R324), the records of keys (R260), and the opening of
service (R313, R325).
Log entries of notes/assumptions that bear on this file: DEDUCED 44, DEDUCED 45, DEDUCED 48. -/

namespace Sys2Proof.Machine

/-! ### DIMMs (R154 to R158) -/

/-- GB per package rank and die of a density (R158): 32 banks of 8 KiB rows in two subchannels. -/
def Dimm.rankGb (x : Dimm) : Nat := x.density * 2

/-- Rows of a bank (R158). -/
def Dimm.rows (x : Dimm) : Nat := x.density * 4096

/-- A supported module (R154, R156). -/
def Dimm.ok (x : Dimm) : Bool :=
  x.good && (x.ranks == 1 || x.ranks == 2) && [1, 2, 4].contains x.stack && [16, 24, 32].contains x.density
    && decide (x.trfc ≤ 410) && decide (x.rankGb * x.ranks * x.stack ≤ 256)

/-- The slots of a channel. -/
def ColdEnv.slots (e : ColdEnv) (c : Nat) : Option Dimm × Option Dimm :=
  (e.dimms.getD (2 * c) none, e.dimms.getD (2 * c + 1) none)

/-- Why a channel cannot be used, as the slot concerned; `none` where it can, or is empty (R155, R156). -/
def slotsBad : Option Dimm × Option Dimm → Option Nat
  | (none, none) => none
  | (none, some _) => some 1
  | (some a, none) => if a.ok then none else some 0
  | (some a, some b) => if !a.ok then some 0 else if !b.ok || a != b then some 1 else none

/-- The first populated channel that meets R154 and the rules on its slots; the others must be its like (R155, R156). -/
def ColdEnv.model (e : ColdEnv) : Option Dimm × Option Dimm :=
  (((List.range 12).map e.slots).find? fun p => p.1.isSome && (slotsBad p).isNone).getD (none, none)

/-- The slot that makes a channel unusable. -/
def ColdEnv.chanBad (e : ColdEnv) (c : Nat) : Option Nat :=
  let p := e.slots c
  (slotsBad p).orElse fun _ => if p = (none, none) ∨ p = e.model then none else some 0

/-- A channel as its SPD sets it up, before training (R158). -/
def ColdEnv.chan (e : ColdEnv) (c : Nat) : Chan :=
  match e.slots c, e.chanBad c with
  | (some a, b), none =>
    let n := if b.isSome then 2 else 1
    { dimms := n, dimmGb := a.rankGb * a.ranks * a.stack, pkgRanks := a.ranks, stack := a.stack, density := a.density
      ranks := n * a.ranks * a.stack, framesPerSub := n * a.ranks * a.stack * 32 * a.rows / 8, trfc := a.trfc
      caseTemp := e.temps.getD c 0, trainTemp := e.temps.getD c 0, setArrA := e.arrA.getD c [], setArrB := e.arrB.getD c []
      sub0 := { state := .training }, sub1 := { state := .training } }
  | (none, none), none => {}
  | _, _ => { sub0 := { state := .disabled }, sub1 := { state := .disabled } }

/-- The training of one subchannel (R172): a failed step, or both sets; one without SUB_EN is DISABLED (R177). -/
def Dev.trainSub (e : ColdEnv) (h : Half) (d : Dev) (k : Nat) : Dev :=
  if (d.sub h k).state != .training then d
  else if d.fld h (pgMEMC (k / 2)) 0x040 1 0 / 2 ^ (k % 2) % 2 = 0 then d.updSub h k fun s => { s with state := .disabled }
  else match smGet e.fails k with
    | some st => (d.updSub h k fun s => { s with state := .failed }).raise h (pgMEMC (k / 2)) .trainFail k st
    | none =>
      ((d.updSub h k fun s => { s with state := .up }).raise h (pgMEMC (k / 2)) .trainDone k 0).raise h (pgMEMC (k / 2)) .trainDone k 1

/-- Population and training (R156, R172). -/
def Dev.trainDram (d : Dev) (h : Half) (e : ColdEnv) : Dev :=
  let d := d.upd h fun x => { x with dram := { x.dram with chans := (List.range 12).map e.chan } }
  let d := (List.range 12).foldl (fun d c => match e.chanBad c with
    | some s => d.raise h (pgMEMC c) .dimmUnsupported (2 * c) s
    | none => d) d
  (List.range 24).foldl (Dev.trainSub e h) d

/-- The channels of a wake: the mooring list's, out of self-refresh, with nothing trained (R322 step 4). -/
def Dev.wakeDram (d : Dev) (h : Half) (m : Mooring) : Dev :=
  let up (s : SubCh) : SubCh := if s.state = .selfRefresh then { s with state := .up } else s
  d.upd h fun x => { x with dram := { x.dram with chans := m.chans.map fun c => { c with sub0 := up c.sub0, sub1 := up c.sub1 } } }

/-- The compatibility self-test (R150). -/
def Dev.selfTest (d : Dev) (h : Half) (e : ColdEnv) : Dev :=
  if !((d.half h).strap.eff.getLsbD 13) then d
  else
    let bad := (d.subs h).filter fun k => e.selftest.contains k
    let m := bad.foldl (fun m k => m + 2 ^ k) 0
    let d := d.setReg h pgECCD 0x124 (2 ^ 31 + 2 ^ 30 * bnum bad.isEmpty + m)
    let d := if bad.isEmpty then d else d.raise h pgECCD .selftestFail
    bad.foldl (fun d k => d.subFail h k) d

/-! ### Frames (R97, R119, R148) -/

/-- Frames of the diagnostic lines: frame n on subchannel n, and on the lowest usable one where that is not (R148). -/
def Dev.diagPlace (d : Dev) (h : Half) : List Nat :=
  let us := d.subs h
  (List.range 16).map fun n =>
    let k := if us.contains n then n else us.headD 0
    k * 2 ^ 22 + ((d.chan h (k / 2)).framesPerSub - 1 - (if us.contains n then 0 else n + 1))

/-- The frame table of a cold start: the retired list, and the diagnostic frames (R119, R148). -/
def Dev.coldFrames (d : Dev) (h : Half) : Dev :=
  let fs := if (d.subs h).isEmpty then [] else d.diagPlace h
  let d := d.upd h fun x => { x with
    tier := { x.tier with
      ftab := fs.zipIdx.foldl (fun m e => smSet m e.1 { state := .diag, tile := e.2 })
        (x.tier.retired.foldl (fun m f => smSet m f { state := .retired }) [])
      dram := [] }
    ecc := { x.ecc with diagFrames := fs, diag := [] } }
  fs.zipIdx.foldl (fun d e => d.setFld h pgECCD (0x110 + e.2 / 4 * 4) (e.2 % 4 * 8 + 7) (e.2 % 4 * 8) (frameSub e.1)) d

/-- The least DRAM of a half, in frames: 64 GiB, or three times its Manifest region (R99). -/
def Dev.leastFrames (d : Dev) (h : Half) : Nat := max (2 ^ 20) (3 * (((d.half h).tier.rawTiles * 16 + 65535) / 65536))

/-- Frames of the channels in use (R156). -/
def Dev.dramFrames (d : Dev) (h : Half) : Nat := lsum ((List.range 24).map fun k => (d.chan h (k / 2)).framesPerSub)

/-! ### The Manifest (R64, R103, R324) -/

/-- A Manifest entry after DRAM is lost. With a complete record every tile but a DARK one has its NAND copy; without one, a
tile held only in DRAM is LOST (R64). -/
def coldEntry (complete : Bool) (x : ManfEntry) : ManfEntry :=
  let gone := BitVec.ofNat 36 noNand
  match x.state with
  | .blank | .lost => x
  | .dark => if complete then { x with frame := 0 }
    else if x.nand = gone then { x with state := .lost, frame := 0 } else { x with state := .nandOnly, frame := 0 }
  | _ => if x.nand = gone then { x with state := .lost, frame := 0, stream := false }
    else { x with state := .nandOnly, frame := 0, stream := false }

/-- Load the Manifest from the checkpoint and the deltas. -/
def Dev.coldManf (d : Dev) (h : Half) (complete : Bool) : Dev :=
  let m := (d.half h).tier.ckpt.map fun e => (e.1, coldEntry complete e.2)
  d.upd h fun x => { x with tier := { x.tier with
    manf := m, changed := [], streamList := [], rehome := (m.filter fun e => e.2.state == .dark).map (·.1) } }

/-- Put a line record back as a dirty Landing line (R308, R324). -/
def Dev.lineBack (h : Half) (d : Dev) (r : Nat × SLine) : Dev :=
  let s := landSet r.1
  match (List.range 16).find? fun w => (smGet (d.half h).land.slots (s * 16 + w)).isNone with
  | some w => d.landPut h (s * 16 + w) { tag := landTag r.1, dirty := true, line := r.2 }
  | none => d

/-- The half comes up with its LDs refused: the dirty shutdown counts rise, and the tiles that `ACCEPT_LOCAL` will report are
noted: those lost, and those whose trailer sailing lies after the record's last sealed one (R62 to R64, R80). -/
def Dev.refuseHalf (d : Dev) (h : Half) : Dev :=
  let v := ((d.half h).pwr.record).getD {}
  let ts := ((d.half h).tier.manf.filter fun e => e.2.state == .lost
    || (match d.nandImg h e.2.nand.toNat with
        | some i => e.2.state != .blank && decide (v.lastSealed < i.sailing)
        | none => false)).map (·.1)
  let d := d.upd h fun x => { x with pwr := { x.pwr with refusing := true, unsaved := ts } }
  let d := (d.allLds.filter fun e => d.ldIn e.1 e.2 h && (d.ldc e.1 e.2).shutdownDirty).foldl (fun d e =>
    (d.updLd e.1 e.2 fun x => { x with dirtyCount := min (x.dirtyCount + 1) 0xFFFFFFFF })) d
  d.raise h pgPWRS .lfIncomplete

/-! ### Seals (R323) -/

/-- The bank of a seal frame fails: its frames are freed and their tiles are NAND_ONLY. -/
def Dev.bankLost (h : Half) (d : Dev) (f : Nat) : Dev :=
  let k := frameSub f
  let nb := d.ranks h (k / 2) * 32
  let rb := frameLocal f % nb
  let l := (d.half h).tier.ftab.filter fun e => frameSub e.1 == k && frameLocal e.1 % nb == rb
    && (e.2.state == .used || e.2.state == .freeFmt)
  l.foldl (fun d e =>
    let d := d.freeFrame h e.1
    if e.2.state = .used ∧ TileStateResident (d.tile h e.2.tile).state then
      d.setTile h e.2.tile { d.tile h e.2.tile with state := .nandOnly, frame := 0, stream := false }
    else d) d

/-- Check one seal: a bank is trusted where the line decodes cleanly and every field matches (R323). -/
def Dev.sealCheck (h : Half) (voyage : Nat) (err : SMap SLine) (d : Dev) (f : Nat) : Dev :=
  let rb := d.frameRankBank h f
  let was := d.frameLine h f 0
  let e := smGetD err f {}
  let l : SLine := { data := was.data ^^^ e.data, side := was.side ^^^ e.side }
  let r := decodeLine (0x3FFF00000000 + f) false none l
  let want := decodeLine (0x3FFF00000000 + f) false none (sealLine voyage f rb.1 rb.2)
  if r.verdict = .clean ∧ r.data = want.data ∧ r.tags = want.tags then d.freeFrame h f
  else
    let d := (d.sat h pgPWRS 0x074).raise h pgPWRS .sealFail (frameSub f * 512 + rb.1 * 32 + rb.2)
    (Dev.bankLost h d f).freeFrame h f

/-! ### Keys (R260) -/

/-- Restore the keys of the slots from their records, under the record wrap key. -/
def Dev.keysBack (d : Dev) (h : Half) : Dev :=
  let key := ((d.half h).boot.keys.map (·.recWrap)).getD 0
  (d.half h).ciph.records.foldl (fun d e =>
    let n := e.1 / 2
    let ph := e.1 % 2 == 1
    let k := d.kslot h n
    let r := kwUnwrap key.toNat (e.2.map (·.toNat))
    let ws := r.2.map (BitVec.ofNat 64)
    let w (i : Nat) : BitVec 256 := keyOfWords ((ws.drop (4 * i)).take 4)
    if r.1 = wrapIv k.gen n ph ∧ (k.state = .active ∨ k.state = .sweeping) then
      d.updSlot h n fun k =>
        if ph then { k with k1b := w 0, k2b := w 1, cmac := w 2, loadedB := true }
        else { k with k1a := w 0, k2a := w 1, cmac := w 2, loadedA := true }
    else d) d

/-! ### The chart (R364) -/

/-- Replay words into the registers; nothing is journaled. -/
def Dev.replay (d : Dev) (h : Half) (ws : SMap Word) : Dev :=
  ws.foldl (fun d e => d.setReg h (e.1 / 1024) (e.1 % 1024 * 4) e.2.toNat) d

/-- What the replayed registers call for: flash channels that are disabled, ports that train. -/
def Dev.replayActs (d : Dev) (h : Half) : Dev :=
  let d := (List.range 32).foldl (fun d c =>
    if d.fld h (pgFLSH (c / 8)) 0x040 (16 + c % 8) (16 + c % 8) = 0 then d.setChan h c 0 else d) d
  (d.upd h fun x => { x with ports := x.ports.map fun p => { p with training := p.perstHigh } }).fordEnable.landNote h

/-! ### `COLD_START` (R322, R324) -/

/-- Firmware may start the half: it runs, or the other complex serves the half; the supplies are up, the half is not in
service, no half-stopping island has failed and no flash channel still trains. -/
def Dev.coldMay (d : Dev) (h : Half) : Bool :=
  let x := d.half h
  d.halves.contains h && (x.pwr.state == .on || x.pwr.state == .trim) && !x.pwr.started && d.supv.seq == .on
    && (x.boot.running || (x.mgmt.lost && d.served h))
    && !(x.pwr.failed.getLsbD 16 || x.pwr.failed.getLsbD 17 || x.pwr.failed.getLsbD 18)
    && !(x.flash.isles.any fun i => i.chans.contains 1)

/-- The Manifest of a start: kept with its DRAM where the mooring list stands, less what failed seals lost (R323), else loaded
from NAND; a wake without the list shows `SAVE_LOST`, with every bank failed. -/
def Dev.startManf (d : Dev) (h : Half) (e : ColdEnv) (v : Option Voyage) (waking save : Bool) : Dev :=
  let fs := (d.half h).pwr.sealFrames
  if save then fs.foldl (Dev.sealCheck h ((v.map (·.voyage)).getD 0) e.seals) (d.setReg h pgPWRS 0x074 0)
  else
    let d := d.coldManf h v.isSome
    if waking then (d.setReg h pgPWRS 0x074 fs.length).raise h pgPWRS .saveLost else d

/-- The service of a half opens: the open record, re-arming, and the events of the start (R313, R320, R324, R325). -/
def Dev.openHalf (d : Dev) (h : Half) (vr : Option Voyage) (waking : Bool) : Dev :=
  let fmt := (d.half h).flash.formatted
  let d : Dev := match vr with
    | some v => d.recordBack h v
    | none => if fmt then d.refuseHalf h else d
  let top := d.topSailing h ((vr.map (·.lastAccepted)).getD 0)
  let d := d.upd h fun x => { x with sail := { x.sail with
    current := top, bothOpen := top, sealed := if vr.isSome then x.sail.sealed else top, ledger := [] } }
  let d : Dev := if fmt then d.openRecord h else d
  let n := (d.half h).pwr.resetIgnored
  let d := if n = 0 then d else d.raise h pgPWRS .resetIgnored n
  let d := d.upd h fun x => { x with
    pwr := { x.pwr with started := true, waking := false, sealFrames := [], resetIgnored := 0, moor := none }
    dram := { x.dram with trained := true } }
  let d := if waking then d.raise h pgPWRS .mooredWake else d
  let d := if fmt then d.rearmStart h else d.raise h (pgFLSH 0) .unformatted
  let d : Dev := match d.supv.faultAtStart with
    | some (rail, kind) => if h = Half.west then
        ({ d with supv := { d.supv with faultAtStart := none } } : Dev).raise Half.west pgSUPV .supplyFault rail kind else d
    | none => d
  let d := (d.half h).ctl.moorLog.reverse.foldl (fun d e => d.jAppend (d.ringHalf h) e) d
  let d := d.upd h fun x => { x with
    ctl := { x.ctl with moorLog := [] }
    boot := { x.boot with meas := x.boot.meas.set 5 d.meas6 } }
  let d := (d.feryTrain h).gateNote h
  d.firstSailing.note

/-- `COLD_START` (R322, R324): `e` is what the start meets. -/
def execColdStart (h : Half) (e : ColdEnv) (s : State) : Out :=
  onDevT (fun d =>
    if !(d.coldMay h) then d
    else
      let x := d.half h
      let vr := if e.recordBad then none else x.pwr.record.filter (·.complete)
      let waking := x.pwr.waking
      let save := match x.pwr.moor, vr with
        | some m, some v => if waking && !e.saveBad && m.voyage == v.voyage then some m else none
        | _, _ => none
      let d := d.nandCold h ((vr.map (·.bitmap)).getD [])
      let d : Dev := match save with
        | some m => d.replay h m.rws
        | none => d
      let d := if x.flash.formatted then d.replay h x.ctl.chart else d
      let d := d.replayActs h
      let d : Dev := match save with
        | some m => d.wakeDram h m
        | none => (d.trainDram h e).selfTest h e
      let d : Dev := if save.isSome then d else d.coldFrames h
      if d.dramFrames h < d.leastFrames h then
        ((d.upd h fun x => { x with
          pwr := { x.pwr with started := true, waking := false }
          tier := { x.tier with undersized := true }
          sail := { x.sail with current := d.topSailing h 0, sealed := d.topSailing h 0 } }).raise h pgMANF .manfUndersized).firstSailing.note
      else
        let d := d.startManf h e vr waking save.isSome
        let d := (vr.map (·.lines)).getD [] |>.foldl (Dev.lineBack h) d
        (d.keysBack h).openHalf h vr waking) s

end Sys2Proof.Machine
end

