-- ==== Sys2Proof/Machine/Supply.lean ====
section
/-! DEFINITION. The supervisor, the housekeeping round and RESET_N (chapters 15 and 16): the Chain's sequences (R373 to
R376), supply faults and their log (R377 to R379), temperature and throttling (R380 to R385), straps and RESET_N (R366,
R397).
Log entries of notes/assumptions that bear on this file: DEDUCED 34, DEDUCED 43, DEDUCED 46, DEDUCED 47. -/

namespace Sys2Proof.Machine

/-! ### The Chain (R373 to R375) -/

/-- `G0_GOOD` (R374 step 1): the always-on islands leave power-on reset. The fuses tell the FSC-9418-C (R4, R33). -/
def execG0Good (s : State) : Out :=
  let c := s.otp.west.config.getLsbD 0
  onDev (fun d =>
    let d := if c then d.upd .west fun x => { x with ford := { x.ford with state := .absent } } else d
    if d.supv.g0 then d
    else { d with uptime := 0, time := 0
                  supv := { logSeq := d.supv.logSeq, logHead := d.supv.logHead, seqIn := d.supv.seqIn, resetN := d.supv.resetN } }) s

/-- `G0_REMOVED` (R385): what G0 keeps is lost too; NAND, the boot flash and the fuses stay. -/
def execG0Removed (s : State) : Out :=
  onDev (fun d =>
    let d := d.eachHalf fun d h => (d.halfLose h false).upd h fun x => { x with
      ctl := { x.ctl with regs := x.ctl.regs.filter fun e => e.1 / 1024 == pgFERY, moorLog := [], evRaw := [] }
      pwr := { record := x.pwr.record, gated := 0x1FFFFF, pwrfailLow := x.pwr.pwrfailLow, inputBack := x.pwr.inputBack } }
    { d with uptime := 0, i3cWest := 0, i3cEast := 0
             supv := { g0 := false, seq := .off, good := 0, pg := 0, en := 0, logSeq := d.supv.logSeq, logHead := d.supv.logHead
                       seqIn := d.supv.seqIn, resetN := d.supv.resetN } }) s

/-- `SEQ_IN_RISE` (R373, R377, R386). -/
def execSeqInRise (s : State) : Out :=
  onDev (fun d =>
    if d.supv.seqIn then d
    else
      let d : Dev := { d with supv := { d.supv with seqIn := true, faultHold := false } }
      let d := d.eachPwr fun p => if p.pwrfailLow then p else { p with inputBack := true }
      if d.mayStart then (if d.supv.alarmDue then d.disarm.upStart 1 else d.upStart 0)
      else if d.supv.seq = .down then { d with supv := { d.supv with upPending := true } }
      else d) s

/-- `INPUT_LOSS` (R373): a fall of SEQ_IN. -/
def execInputLoss (s : State) : Out :=
  onDevT (fun d =>
    let d : Dev := { d with supv := { d.supv with seqIn := false, upPending := false } }
    if d.supv.seq = .up ∨ d.supv.seq = .holdRelease then d.downStart 0
    else if d.supv.seq = .on then
      if !(d.halves.any fun h => d.live h) then d.downStart 0
      else if d.fld .west pgPWRS 0x040 1 1 = 0 then d
      else ((d.eachPwr fun p => { p with inputBack := false }).raise .west pgSUPV .inputLoss).trigger 1 d.halves
    else d) s

/-- The group of a rail (R370). -/
def railGroup : Nat → Nat
  | 0 => 0 | 1 => 1 | 2 => 2 | 3 => 3 | 4 => 4 | 5 => 4 | 6 => 4 | 7 => 5 | 8 => 5 | 9 => 6 | 10 => 6 | _ => 7

/-- Note a group good or not. -/
def Supv.mark (s : Supv) (n : Nat) (on : Bool) : Supv :=
  let b := BitVec.twoPow 8 n
  { s with good := if on then s.good ||| b else s.good &&& ~~~b, pg := if on then s.pg ||| b else s.pg &&& ~~~b }

/-- What an up-sequence does after a group: the next group's enable, or the wait for a release (R374, R375). -/
def Dev.upNext (d : Dev) (n : Nat) : Dev :=
  let m := d.nextGroup n
  if m = 8 then d
  else if m = 5 then { d with supv := { d.supv with seq := .holdRelease } }
  else { d with supv := ({ d.supv with step := m } : Supv).enable m true }

/-- `GROUP_GOOD` (R374): the group being sequenced is good and its delay has ended. With G6 the flash channels that carry
parts, one bit each, start to train (R224); with G1 the held log records are written (R378). -/
def execGroupGood (n : Nat) (flashWest flashEast : BitVec 32) (s : State) : Out :=
  onDev (fun d =>
    if d.supv.seq != .up || d.supv.step != n || d.supv.good.getLsbD n then d
    else
      let d : Dev := { d with supv := d.supv.mark n true }
      let d := if n = 1 then d.logHeld else d
      let d := if n = 6 then d.eachHalf fun d h =>
          let m := match h with
            | .west => flashWest
            | .east => flashEast
          (List.range 32).foldl (fun d c => d.setChan h c (bnum (m.getLsbD c))) d
        else d
      d.upNext n) s

/-- `SEQ_OUT_DELAY` (R373, R374 step 9): the last enabled group has been good for `SEQ_DLY_US`. -/
def execSeqOutDelay (s : State) : Out :=
  onDev (fun d =>
    if d.supv.seq != .up || !(d.supv.good.getLsbD d.supv.step) || d.nextGroup d.supv.step != 8 then d
    else
      let d : Dev := { d with supv := { d.supv with seq := .on, step := 0, seqOut := true } }
      d.eachPwr fun p => { p with state := .on, lfStep := 0 }) s

/-- `SUPV.CTRL` in West's page (R374, R379, R387). -/
def Dev.supvCtrl (v : Nat) (d : Dev) : Option Dev :=
  if v % 2 = 1 ∧ d.supv.seq ≠ .holdRelease then none
  else
    let d : Dev := if v / 2 % 2 = 1 then
        { d.logCounts with supv := { d.logCounts.supv with counts := [] } } else d
    some (if v % 2 = 1 then { d with supv := ({ d.supv with seq := .up, step := 5 } : Supv).enable 5 true } else d)

/-- A command in West's `SUPV` page; East's refuses writes (R387). -/
def supvWrite (org : Origin) (h : Half) (off v : Nat) (act : Dev → Option Dev) (s : State) : Out :=
  onDev (fun d => d.command org h pgSUPV off v (fun d => if h = Half.west then act d else none)) s

/-- `SUPV_RELEASE` (R374). -/
def execSupvRelease (org : Origin) (h : Half) (s : State) : Out := supvWrite org h 0x068 1 (Dev.supvCtrl 1) s

/-- `CLR_COUNTS` (R379). -/
def execClrCounts (org : Origin) (h : Half) (s : State) : Out := supvWrite org h 0x068 2 (Dev.supvCtrl 2) s

/-- `SUPV.CNT_SEL` (R387): rail 0 to 11. -/
def Dev.cntSel (v : Nat) (d : Dev) : Option Dev := if v % 16 < 12 then some (d.setReg .west pgSUPV 0x080 (v % 16)) else none

/-- `SUPV_CNT_SEL` (R387). -/
def execSupvCntSel (org : Origin) (h : Half) (rail : Nat) (s : State) : Out := supvWrite org h 0x080 rail (Dev.cntSel rail) s

/-- `COUNTER_FLUSH` (R379): once an hour by the RTC. -/
def execCounterFlush (s : State) : Out := onDev (fun d => if d.supv.g0 then d.logCounts else d) s

/-! ### Faults (R377, R378) -/

/-- Count a fault: 0 undervoltage, 1 overvoltage, 2 chatter, 3 timeout; PG low counts as an undervoltage
(DEDUCED, notes/assumptions/34.md). -/
def Dev.countFault (d : Dev) (rail kind : Nat) : Dev :=
  let k := rail * 4 + (if kind = 4 then 0 else kind)
  { d with supv := { d.supv with counts := smPut d.supv.counts k 0 (min 0xFFFF (smGetD d.supv.counts k 0 + 1)) } }

/-- Write the first-failure record of a down-sequence (R378). -/
def Dev.firstFail (d : Dev) (h : Half) (rail kind : Nat) : Dev :=
  if d.supv.firstDone then d
  else
    let mv := (d.reg h pgHKU (0x080 + 4 * rail)).toNat
    let t := if (d.half h).boot.running then d.time else 0
    let p := [rail % 256, kind % 256, d.supv.seq.code * 16 + d.supv.step % 16].map (BitVec.ofNat 8)
      ++ leBytes 2 mv ++ List.replicate 3 0 ++ leBytes 8 t
    let d := (d.setReg64 .west pgSUPV 0x070 (ofLe (p.take 8))).setReg64 .west pgSUPV 0x078 d.rtcNow
    ({ d with supv := { d.supv with firstDone := true } } : Dev).logPut 1 h d.rtcNow p

/-- A fault whose down-sequence ends in OFF: it holds new starts, and shows at the next (R377, R387). -/
def Dev.faultOff (d : Dev) (rail kind : Nat) : Dev :=
  { d with supv := { d.supv with faultHold := true, faultAtStart := (d.supv.faultAtStart).orElse fun _ => some (rail, kind) } }

/-- A supply fault (R377). -/
def Dev.fault (d : Dev) (h : Half) (rail kind : Nat) : Dev :=
  let n := railGroup rail
  if 12 ≤ rail || 5 ≤ kind || (rail == 11 && d.fld .west pgSUPV 0x05C 31 31 == 0) then d
  else if (kind == 0 || kind == 4) && !(d.supv.good.getLsbD n) then d
  else if d.supv.seq = .down ∧ kind = 2 then d
  else
    let d := d.countFault rail kind
    let d : Dev := if n = 0 then d else { d with supv := d.supv.mark n false }
    match d.supv.seq with
    | .up | .holdRelease => ((d.firstFail h rail kind).faultOff rail kind).downStart 0
    | .on =>
      let d := (d.firstFail h rail kind).faultOff rail kind
      if (n = 1 ∨ n = 7) ∧ d.halves.any (fun k => d.live k) then d.startLf 3 d.halves else d.downStart 0
    | .moored => if n = 0 ∨ n = 5 then ((d.firstFail h rail kind).faultOff rail kind).downStart 0 else d
    | _ => d

/-- `SUPPLY_FAULT` (R377): kinds 0 undervoltage, 1 overvoltage, 2 chatter, 4 PG low. -/
def execSupplyFault (h : Half) (rail kind : Nat) (s : State) : Out :=
  onDevT (fun d => if d.halves.contains h && d.supv.g0 && kind != 3 then d.fault h rail kind else d) s

/-- `GROUP_TIMEOUT` (R377): a rail of the group being sequenced is not good in time. -/
def execGroupTimeout (n rail : Nat) (s : State) : Out :=
  onDevT (fun d =>
    if d.supv.seq != .up || d.supv.step != n || d.supv.good.getLsbD n || railGroup rail != n then d
    else d.fault .west rail 3) s

/-- The group at the head of a down-sequence is down: the next one goes. -/
def Dev.downPop (d : Dev) (n : Nat) : Dev :=
  ({ d with supv := { (d.supv.mark n false) with down := d.supv.down.drop 1 } } : Dev).downNext

/-- `RAIL_FALLEN` (R376): the rails of the group being switched off are below 10%. -/
def execRailFallen (n : Nat) (s : State) : Out :=
  onDev (fun d => if d.supv.seq == .down && d.supv.down.head? == some n then d.downPop n else d) s

/-- `FALL_SLOW` (R376): a rail has not fallen in time; the sequence goes on. An immediate one neither raises nor counts. -/
def execFallSlow (rail : Nat) (s : State) : Out :=
  onDev (fun d =>
    let n := railGroup rail
    if d.supv.seq != .down || 12 ≤ rail || d.supv.en.getLsbD n then d
    else
      let d := if d.supv.downKind = 2 then d else (d.countFault rail 3).raise .west pgSUPV .fallSlow rail
      if d.supv.down.head? == some n then d.downPop n else d) s

/-- `THERMAL_TRIP` (R385): the diode that is hottest, and its reading. -/
def execThermalTrip (h : Half) (diode temp : BitVec 8) (s : State) : Out :=
  onDev (fun d =>
    if d.supv.tripped || !d.supv.g0 then d
    else
      let d := d.logPut 4 h d.rtcNow [diode, temp]
      ({ d with supv := { d.supv with tripped := true, thermtrip := true, upPending := false } } : Dev).downStart 2) s

/-! ### The housekeeping round (R162, R380 to R384) -/

/-- A diode reading in °C that takes part in decisions (R380). -/
def diodeOk : Option Int → Bool
  | some t => decide (-40 ≤ t) && decide (t ≤ 150)
  | none => false

/-- An 8-bit two's complement field as a number. -/
def sbyte (v : Nat) : Int := (BitVec.ofNat 8 v).toInt

/-- A number as an 8-bit two's complement field. -/
def byteOf (t : Int) : Nat := (BitVec.ofInt 8 t).toNat

/-- The onset of a step in °C (R381). -/
def Dev.onset (d : Dev) (h : Half) (n : Nat) : Int :=
  (d.fld h pgTHRM 0x040 15 8 : Int) + (n - 1 : Nat) * (d.fld h pgTHRM 0x040 7 4 : Int)

/-- The lowest step that may be in force: `MIN_STEP`, and T2 while held (R380, R383). -/
def Dev.stepFloor (d : Dev) (h : Half) : Nat := max (d.fld h pgTHRM 0x048 1 0) (if (d.half h).thrm.held then 2 else 0)

/-- The steps of a round, at most one change: `was` and `now` are Tj of the last two rounds (R383). -/
def Dev.throttle (d : Dev) (h : Half) (was now : Int) : Dev :=
  let n := (d.half h).thrm.step
  if n < 3 ∧ (n < d.stepFloor h ∨ (d.onset h (n + 1) ≤ was ∧ d.onset h (n + 1) ≤ now)) then d.setStep h (n + 1)
  else if n = 0 then d
  else if now < d.onset h n - (d.fld h pgTHRM 0x040 3 0 : Int) then
    let k := (d.half h).thrm.downRounds + 1
    if 500 ≤ k ∧ d.stepFloor h < n then d.setStep h (n - 1)
    else d.upd h fun x => { x with thrm := { x.thrm with downRounds := min 500 k } }
  else d.upd h fun x => { x with thrm := { x.thrm with downRounds := 0 } }

/-- Tj at 110 °C in two rounds: Last Ferry of both halves with cause 2 (R384). -/
def Dev.critical (d : Dev) (h : Half) (was now : Int) : Dev :=
  let known (k : Half) : Bool := d.inLf k && ((d.half k).pwr.lf.cause == 2 || (d.half k).pwr.triggers.contains 2)
  if was < 110 ∨ now < 110 ∨ !(d.halves.any fun k => d.live k && !(known k)) then d
  else (d.raise h pgTHRM .criticalTemp (byteOf now)).startLf 2 d.halves

/-- A channel's SPD-hub reading, the hottest of its DIMMs; `none` was missed (R162). -/
def Dev.spdRead (h : Half) (d : Dev) (e : Option Nat × Nat) : Dev :=
  let x := d.chan h e.2
  if x.dimms = 0 then d
  else match e.1 with
    | none =>
      let d := (d.updChan h e.2 fun y => { y with missed := min 3 (y.missed + 1), coolRounds := 0 }).raise h pgHKU .spdMissed e.2
      if 2 ≤ x.missed then d.setHot h e.2 true else d
    | some t =>
      let cool := if t < 82 then min 3 (x.coolRounds + 1) else 0
      let d := d.updChan h e.2 fun y => { y with missed := 0, caseTemp := t, coolRounds := cool }
      if 85 ≤ t then d.setHot h e.2 true
      else if 3 ≤ x.missed || 3 ≤ cool then d.setHot h e.2 false
      else d

/-- Tj of a round (R380): the hottest diode that takes part; with none the last round's. -/
def Dev.roundTj (d : Dev) (h : Half) (diodes : List (Option Int)) : Int :=
  let ok := ((List.range 24).filterMap fun k => if diodeOk (diodes.getD k none) then diodes.getD k none else none)
  ok.foldl max (ok.headD (sbyte (d.tj h)))

/-- What a round reads: its count, the monitors, the diodes, Tj and its greatest value, and their events (R380 to R382). -/
def Dev.roundRead (d : Dev) (h : Half) (diodes : List (Option Int)) (volts currs drift : List Nat) (late : Bool) : Dev :=
  let d := d.wrap32 h pgHKU 0x040
  let d := if late then (d.sat h pgHKU 0x044).raise h pgHKU .roundLate else d
  let d := ((volts.take 40).zipIdx.foldl (fun d e => d.setReg h pgHKU (0x080 + 4 * e.2) (e.1 % 65536)) d)
  let d := ((currs.take 8).zipIdx.foldl (fun d e => d.setReg h pgHKU (0x120 + 4 * e.2) (e.1 % 65536)) d)
  let d := drift.foldl (fun d n => if n < 40 then d.raise h pgHKU .voltDrift n else d) d
  let ds := (List.range 24).map fun k => diodes.getD k none
  let was := (d.half h).thrm.excluded
  let ex := ds.zipIdx.foldl (fun (m : BitVec 24) e => if diodeOk e.1 then m else m ||| BitVec.twoPow 24 e.2) 0
  let tj := d.roundTj h diodes
  let bytes := ds.map fun t => if diodeOk t then byteOf (t.getD 0) else 0x80
  let d := (List.range 6).foldl (fun d n =>
    d.setReg h pgTHRM (0x060 + 4 * n) ((List.range 4).foldl (fun v j => v + bytes.getD (4 * n + j) 0x80 * 256 ^ j) 0)) d
  let held := decide (4 < (ds.filter fun t => !(diodeOk t)).length)
  let d := (d.setFld h pgTHRM 0x044 31 24 (byteOf tj)).upd h fun x => { x with thrm := { x.thrm with
    excluded := ex, held := held || x.pwr.failed.getLsbD 20 } }
  let d := d.setReg h pgTHRM 0x04C (byteOf (max (sbyte (d.reg h pgTHRM 0x04C).toNat) tj))
  let d := (List.range 24).foldl (fun d k =>
    if ex.getLsbD k && !(was.getLsbD k) then d.raise h pgTHRM .diodeFail (byteOf tj) k else d) d
  let warn := decide ((d.fld h pgTHRM 0x040 23 16 : Int) ≤ tj)
  let d := if warn && !((d.half h).thrm.warned) then d.raise h pgTHRM .tempWarn (byteOf tj) else d
  d.upd h fun x => { x with thrm := { x.thrm with warned := warn } }

/-- A round is made: the island works, and firmware, the other complex, or Last Ferry reads it. -/
def Dev.roundMay (d : Dev) (h : Half) : Bool :=
  !(d.islandDark h 20) && ((d.half h).boot.running || d.served h || d.live h) && d.halves.contains h

/-- `HOUSEKEEPING_ROUND` (R380): the diodes in °C, the voltage monitors in mV, the current inputs, the channels' SPD readings
that every 16th round makes, the monitors found outside their windows, and whether the round overran. -/
def execHousekeepingRound (h : Half) (diodes : List (Option Int)) (volts currs : List Nat) (spd : List (Option Nat)) (drift : List Nat)
    (late : Bool) (s : State) : Out :=
  onDevT (fun d =>
    if !(d.roundMay h) then d
    else
      let was := sbyte (d.tj h)
      let now := d.roundTj h diodes
      let d := (d.roundRead h diodes volts currs drift late).throttle h was now
      let d := if (d.reg h pgHKU 0x040).toNat % 16 = 0 then (List.range 12).foldl (fun d c => d.spdRead h (spd.getD c none, c)) d else d
      d.critical h was now) s

/-! ### RESET_N and the straps (R366, R397) -/

/-- A restart of boot before the half is in service: every island but always-on is held in reset (R397). -/
def Dev.bootAgain (d : Dev) (h : Half) : Dev :=
  let p := (d.half h).pwr
  let d := d.upd h fun x => x.lose p.waking
  d.upd h fun x => { x with
    ford := { x.ford with state := if x.ford.state == .absent then .absent else .training }
    pwr := { x.pwr with state := p.state, gated := 0, inReset := 0x1FFFFF, waking := p.waking, moor := p.moor, wakeCause := p.wakeCause } }

/-- `RESET_N_LOW` (R397): held low for 10 µs. -/
def execResetNLow (s : State) : Out :=
  onDevT (fun d =>
    let d : Dev := { d with supv := { d.supv with resetN := false } }
    if d.halves.any fun h => d.live h then
      let hs := d.halves.filter fun h => d.live h && !(d.inLf h)
      let d := d.eachPwr fun p => if p.state = .lastFerry then { p with resetPending := true } else p
      (hs.foldl (fun d h => d.journal (.hw 21) h pgPWRS 0x04C rCOMMAND 0 1) d).startLf 4 hs
    else if d.supv.seq = .moored then d.eachPwr fun p => if p.state = .moored then { p with resetIgnored := p.resetIgnored + 1 } else p
    else if [SupvSeq.up, .holdRelease, .on].contains d.supv.seq then
      { d.eachHalf fun d h => d.bootAgain h with cast := {}, keys := { sweep := d.keys.sweep, count := d.keys.count }, spdm := [], otpc := none }
    else d) s

/-- The strap values in use: locked ones from the OTP, else the pins West sampled (R366). -/
def strapEff (o : OtpRow) (pins : BitVec 14) : BitVec 14 :=
  let m := BitVec.ofNat 14 (lockedMask o.strapLock.vote.toNat)
  (pins &&& ~~~m) ||| (o.strapVal.vote.setWidth 14 &&& m)

/-- Straps that the dies sampled differently and neither locks. -/
def strapsDiffer (o : OtpRow) (a b : BitVec 14) : List Nat :=
  (List.range 7).filter fun i =>
    !(o.strapLock.vote.getLsbD i) && bitsOf a.toNat ((strapField i).1 + (strapField i).2 - 1) (strapField i).1
      != bitsOf b.toNat ((strapField i).1 + (strapField i).2 - 1) (strapField i).1

/-- `RESET_N_HIGH` (R365, R366, R397): a cold reset's rise samples the straps; a warm return that waits goes on. -/
def execResetNHigh (strapsWest strapsEast : BitVec 14) (s : State) : Out :=
  let o := s.otp.west
  onDevT (fun d =>
    if d.supv.resetN then d
    else
      let d : Dev := { d with supv := { d.supv with resetN := true } }
      if d.halves.any fun h => d.inLf h then d.halves.foldl (fun d h => d.lfJoin h) d
      else if (d.halves.any fun h => d.live h) || d.supv.seq == .moored then d
      else
        let e := strapEff o strapsWest
        let d := d.upd .west fun x => { x with strap := { pins := strapsWest, eff := e } }
        if d.single then d
        else
          let d := d.upd .east fun x => { x with strap := { pins := strapsEast, eff := e } }
          (strapsDiffer o strapsWest strapsEast).foldl (fun d i => d.raise .west pgSTRP .strapMismatch i) d) s

end Sys2Proof.Machine
end

