-- ==== Sys2Proof/Machine/Access.lean ====
section
/-! DEFINITION. Register accesses (R345 to R356): reads and writes by address, the handling of a write by access codes, the
register messages of the Ford, the read selectors of `JRNL` and the spill of the journal.
Log entries of notes/assumptions that bear on this file: DEDUCED 15, DESIGN CHOICE 16, DEDUCED 23, DEDUCED 32, DEDUCED 39. -/

namespace Sys2Proof.Machine

/-! ### The read selectors of `JRNL` (R367) -/

/-- The 256 bits of a journal entry (R355). -/
def JEntry.bits (e : JEntry) : Nat :=
  e.time % 2 ^ 64 * 2 ^ 192 + e.new.toNat * 2 ^ 160 + e.old.toNat * 2 ^ 128 + e.jseq % 2 ^ 32 * 2 ^ 96 + e.txn % 2 ^ 16 * 2 ^ 80
    + e.result % 8 * 2 ^ 34 + e.cls % 8 * 2 ^ 31 + e.org % 256 * 2 ^ 23 + e.word % 1024 * 2 ^ 13 + e.page % 4096 * 2 + e.half.num

/-- The 256 bits of an event record (R349). -/
def EvRec.bits (e : EvRec) : Nat :=
  e.time % 2 ^ 64 * 2 ^ 192 + e.arg1 % 2 ^ 64 * 2 ^ 128 + e.arg0 % 2 ^ 64 * 2 ^ 64 + e.evseq % 2 ^ 32 * 2 ^ 32 + e.page % 4096 * 2 ^ 20
    + e.half.num * 2 ^ 19 + e.bit % 64

/-- Copy the entry of a sequence into `ENTRY`; one that is not held is GONE. -/
def Dev.jrnlSel (h : Half) (v : Nat) (d : Dev) : Option Dev :=
  let c := (d.half h).ctl
  let d := d.setReg64 h pgJRNL 0x058 (v % 2 ^ 64)
  some (match (c.journal ++ c.spill.flatten).find? fun e => e.jseq == v % 2 ^ 64 with
    | some e => (d.setWords h pgJRNL 0x080 8 e.bits).setReg h pgJRNL 0x060 (2 * 2 ^ 30)
    | none => d.setReg h pgJRNL 0x060 (3 * 2 ^ 30))

/-- Copy the event record of a sequence into `EV_REC`; one no longer in the ring reads zero. -/
def Dev.evSel (h : Half) (v : Nat) (d : Dev) : Option Dev :=
  let c := (d.half h).ctl
  let v := v % 2 ^ 64
  let e := if v ≤ c.evSeq then (c.evRing[c.evSeq - v]?).map EvRec.bits else none
  some ((d.setReg64 h pgJRNL 0x078 v).setWords h pgJRNL 0x0C0 8 (e.getD 0))

/-- `JRNL_SEL` (R367): a read selector, not journaled (R354). -/
def execJrnlSel (org : Origin) (h : Half) (seq : DWord) (s : State) : Out :=
  onDev (fun d => d.command org h pgJRNL 0x058 seq.toNat (Dev.jrnlSel h seq.toNat) true false) s

/-- `JRNL_EV_SEL` (R367). -/
def execJrnlEvSel (org : Origin) (h : Half) (seq : DWord) (s : State) : Out :=
  onDev (fun d => d.command org h pgJRNL 0x078 seq.toNat (Dev.evSel h seq.toNat) true false) s

/-- Spill 2,048 entries after another until the ring is below 75%. -/
def spillRun : Nat → CtlHalf → CtlHalf
  | 0, c => c
  | n + 1, c => if 49152 ≤ c.unspilled then spillRun n (spillOnce c) else c

/-- `JOURNAL_SPILL` (R356): the ring has reached 75%. A program that fails is counted and raises `SPILL_FAIL`. -/
def execJournalSpill (h : Half) (ok : Bool) (s : State) : Out :=
  onDev (fun d =>
    if (d.half h).ctl.unspilled < 49152 || !(d.spillOk h) then d
    else if ok then d.upd h fun x => { x with ctl := { spillRun 9 x.ctl with spillFails := 0 } }
    else (d.upd h fun x => { x with ctl := { x.ctl with spillFails := x.ctl.spillFails + 1 } }).raise h pgJRNL .spillFail) s

/-! ### Writes by access code (R350, R351) -/

/-- The register at an offset. The tier's registers of `FLSH` lie on island 0 alone (R250). -/
def regAt (page off : Nat) : Option (Block × Nat × Reg × Nat) :=
  match keyReg (regKey page off) with
  | some (.flsh, i, r, k) => if i != 0 && decide (0x058 ≤ r.off) && decide (r.off < 0x080) then none else some (.flsh, i, r, k)
  | x => x

/-- Writes that the journal does not hold (R354). -/
def unjournaled (b : Block) (off : Nat) : Bool :=
  match b with
  | .ldp => off == 0x100
  | .jrnl => off == 0x058 || off == 0x078
  | .scor => off == 0x050
  | .manf => off == 0x0A0
  | .boot => off == 0x050
  | _ => false

/-- The register has a field that a write can change or that acts. -/
def Reg.writable (r : Reg) : Bool := r.maskOf (fun a => a != .ro) != 0

/-- Hold the low half of a 64-bit write for its origin, in place of any other (R350). -/
def Dev.holdLow (d : Dev) (org : Origin) (h : Half) (key : Nat) (v : Word) : Dev :=
  let d := [Half.west, Half.east].foldl (fun d k => d.upd k fun x => { x with ctl := { x.ctl with
    wrLatch := x.ctl.wrLatch.filter fun l => !(l.org == org) } }) d
  d.upd h fun x => { x with ctl := { x.ctl with wrLatch := ⟨org, key, v⟩ :: x.ctl.wrLatch } }

/-- The low half that goes with a high-half write: the one held for the register, which is used up, else the register's
current low half, staged where the origin has staged it (R350; DEDUCED, notes/assumptions/23.md). -/
def Dev.takeLow (d : Dev) (org : Origin) (h : Half) (key : Nat) : Word × Dev :=
  match (d.half h).ctl.wrLatch.find? fun l => l.org == org && l.key == key with
  | some l => (l.val, d.upd h fun x => { x with ctl := { x.ctl with wrLatch := x.ctl.wrLatch.filter fun m => !(m.org == org) } })
  | none =>
    let own := (d.openTxn org).bind fun i => (d.cast.slots.getD i none).bind fun t =>
      (t.staged.find? fun s => s.1 == h && s.2.1 == key).map (·.2.2)
    (own.getD (d.storeWord h (key / 1024) (key % 1024 * 4)), d)

/-- What a command register does with the value written, and how it shows a refusal; none for a register that is not one.
`CAST.CMD` has rules of its own. -/
def Dev.rwiAct (otp : Pair OtpRow) (org : Origin) (h : Half) (b : Block) (i off k v : Nat) (test : Bool) :
    Option ((Dev → Option Dev) × (Dev → Dev)) :=
  let go (f : Dev → Option Dev) (no : Dev → Dev := id) : Option ((Dev → Option Dev) × (Dev → Dev)) := some (f, no)
  match b with
  | .mgmt => go (Dev.mgmtCmd h v)
  | .jrnl => go (if off = 0x058 then Dev.jrnlSel h v else Dev.evSel h v)
  | .otpc => go (Dev.otpcCmd otp h v) (Dev.otpcNo otp h v)
  | .boot => go (Dev.measSel h v)
  | .pwrs => go (Dev.pwrsCmd h v)
  | .supv => go (if off = 0x068 then Dev.supvCtrl v else Dev.cntSel v)
  | .sail => go (Dev.sailCmd h v) (Dev.sailNo h v)
  | .tier => go (if off = 0x070 then fun d => some (d.setReg64 h pgTIER 0x070 v) else Dev.tierCmd h v)
  | .manf => go (Dev.peek h v)
  | .land => go (if off = 0x050 then fun d => some (d.setReg64 h pgLAND 0x050 v)
      else if off = 0x058 then fun d => some (d.setReg h pgLAND 0x058 v) else Dev.landCmd h v)
  | .scor => go (if off = 0x050 then Dev.scorSel h v else Dev.scorAck h v)
  | .eccd => if off = 0x0A0 then go (Dev.eccdCmd h v) (Dev.eccdNo h) else go (Dev.armInj h test v)
  | .fery => go (if off = 0x0D0 then fun d => some (d.setReg64 h pgFERY 0x0D0 v) else Dev.feryCmd h v)
  | .ford => go (Dev.fordCmd v)
  | .keys => go (Dev.keysCmd org h v) (Dev.keysNo org h v)
  | .memc => go (Dev.freqSel h v)
  | .dtrn => if off = 0x050 then go (Dev.dtrnRun h i v) (Dev.dtrnNo h i) else go (Dev.dtrnMrw h i v)
  | .flsh => if off = 0x078 then go (Dev.flshCmd h v) (Dev.flshNo h v) else go (Dev.diagGo test h i) (Dev.diagNo h i)
  | .ldp =>
    if off = 0x100 then go fun d => some (d.ringFence h i (BitVec.ofNat 32 v))
    else if v.testBit 31 then go (Dev.streamOpen h i k)
    else go fun d => some (d.streamEnd h i k 0)
  | .strp | .cast | .thrm | .hku | .ciph | .hpt => none

/-- Whether a write of a register that mixes command and configuration fields acts as a command: its command field is
non-zero, or closes an open window (DEDUCED, notes/assumptions/32.md). -/
def Dev.rwiActs (d : Dev) (h : Half) (b : Block) (i : Nat) (r : Reg) (k cmd : Nat) (mixed : Bool) : Bool :=
  !mixed || cmd != 0 || (b == .ldp && r.off == 0x14C && ((d.ldc h i).streams.getD k {}).isOpen)

/-- The `w1c` and `wo` fields of an element, which act at once (R351). -/
def Dev.writeClear (d : Dev) (org : Origin) (h : Half) (page : Nat) (b : Block) (i : Nat) (r : Reg) (k v : Nat) : Dev :=
  let off := r.base k
  let m := r.maskOf fun a => a == .w1c || a == .wo
  if m = 0 then d
  else if off = 0x038 then
    let d := d.setEvRaw h page (d.evRaw h page &&& ~~~(BitVec.ofNat 64 v))
    (d.journal org h page off rAPPLIED 0 (loWord v)).journal org h page (off + 4) rAPPLIED 0 (hiWord v)
  else if r.fields.any fun f => f.acc == .wo then
    (d.setReg h page off (v &&& m)).journal org h page off rAPPLIED 0 (loWord v)
  else if b == .ldp then
    let old := (d.ldc h i).evLatch
    let new := old &&& ~~~(BitVec.ofNat 11 v)
    if old = new then d
    else (d.updLd h i fun x => { x with evLatch := new }).journal org h page off rAPPLIED (old.setWidth 32) (new.setWidth 32)
  else
    let old := d.storeWord h page off
    let new := if v &&& m = 0 then old else old &&& ~~~(BitVec.ofNat 32 m)
    if old = new then d else (d.setReg h page off new.toNat).journal org h page off rAPPLIED old new

/-- The words of an element with the staged bits of a value put into them. -/
def Dev.newWords (d : Dev) (h : Half) (page : Nat) (b : Block) (r : Reg) (k v : Nat) : List (Nat × Word) :=
  let m := stagedMask b r k
  let put (off : Nat) (m v : Word) : Nat × Word := (regKey page off, (d.storeWord h page off &&& ~~~m) ||| (v &&& m))
  put (r.base k) (loWord m) (loWord v) :: if r.wide then [put (r.base k + 4) (hiWord m) (hiWord v)] else []

/-- `RTC_ALARM` outside a transaction (R321): at once, to both copies while the device is whole. -/
def Dev.alarmWrite (d : Dev) (org : Origin) (h : Half) (ws : List (Nat × Word)) : Dev :=
  let d := d.commitWords org h ws
  if d.single || d.split then d else d.commitWords org h.other ws

/-- The `rw` and `rws` fields of an element: staged in the origin's transaction, or committed on their own (R351). -/
def Dev.writeStaged (d : Dev) (org : Origin) (h : Half) (page : Nat) (b : Block) (r : Reg) (k v : Nat) : Dev :=
  if stagedMask b r k = 0 then d
  else
    let ws := d.newWords h page b r k v
    match d.openTxn org with
    | some i => d.stageWords i org h ws
    | none => if b == .pwrs && r.off == 0x058 then d.alarmWrite org h ws else d.implicitCommit org h b r ws

/-- A write of a whole element that no rule of R351 refuses. -/
def Dev.writeElem (d : Dev) (otp : Pair OtpRow) (org : Origin) (e h : Half) (page : Nat) (b : Block) (i : Nat) (r : Reg) (k v : Nat) : Dev :=
  let off := r.base k
  let cm := r.maskOf fun a => a == .rwi
  let mixed := stagedMask b r k != 0
  if b == .cast then d.castLocal org e h v
  else if (b == .supv && h == .east) || (d.single && b == .ford && off == 0x040) then d.refuse org h page off (loWord v)
  else if d.single && b == .ldp && off == 0x060 then d
  else
    let d := d.writeClear org h page b i r k v
    if cm != 0 && d.rwiActs h b i r k (v &&& cm) mixed then
      match Dev.rwiAct otp org h b i r.off k (v &&& cm) (d.testOn (otp.get h) h) with
      | some (act, no) =>
        let d := if (d.openTxn org).isSome then d else d.writeStaged org h page b r k v
        d.localCommand org e h page off v r.wide (!(unjournaled b r.off) && !(b == .keys && v % 16 == 7)) act no
      | none => d
    else d.writeStaged org h page b r k v

/-- A write of one word at the half that judges it (R350, R351). `full` is false for partial byte enables. -/
def Dev.localWrite (d : Dev) (otp : Pair OtpRow) (org : Origin) (e h : Half) (page off : Nat) (v : Word) (full : Bool) : Dev :=
  let reg := regAt page off
  let jn := match reg with
    | some (b, _, r, _) => r.writable && !(unjournaled b r.off) && !(b == .keys && r.off == 0x040 && v.toNat % 16 == 7)
        && !(b == .cast && v.toNat % 16 == 2)
    | none => false
  match d.gate org e h page off jn with
  | .pass =>
    if !full then d.refuse org h page off v
    else match reg with
      | none => d
      | some (b, i, r, k) =>
        if !r.wide then d.writeElem otp org e h page b i r k v.toNat
        else if r.base k = off then d.holdLow org h (regKey page off) v
        else
          let low := d.takeLow org h (regKey page (r.base k))
          low.2.writeElem otp org e h page b i r k (low.1.toNat + 2 ^ 32 * v.toNat)
  | g => d.applyGate g org e h page off v

/-- A write by an origin: over the Ford where it enters by the other half and the Ford is up (R345, R346). A write with
partial byte enables is refused where it enters. -/
def Dev.regWrite (d : Dev) (otp : Pair OtpRow) (org : Origin) (h : Half) (page off : Nat) (v : Word) (full : Bool) : Dev :=
  let via := org.via h
  if via != h && d.fordUp via && full then d.accSend via org (.regWr org (regAddr h page off) v)
  else d.localWrite otp org via h page off v full

/-- The half and the page of an address (R344). -/
def addrHalf (a : Nat) : Half := if a / 0x1000000 % 2 = 1 then .east else .west
def addrPage (a : Nat) : Nat := a / 4096 % 4096

/-! ### Reads (R350, R353) -/

/-- A read at the half that judges it: all ones from a dark page with `DARK_ACCESS`, or while no complex serves the half
(R337); a wait while an implicit commit of the register is pending (R347). `ford` says that the answer goes over the Ford. -/
def Dev.localRead (d : Dev) (otp : Pair OtpRow) (org : Origin) (e h : Half) (page off : Nat) (ford : Bool) : Dev :=
  let addr := regAddr h page off
  if !(d.reaches org h page off) then d.sendValue e org addr 0 ford
  else if org.outside && d.mgmtLost h && !(d.served h) && !(org.isBmc && (page == pgPWRS || page == pgSUPV)) then
    d.sendValue e org addr 0xFFFFFFFF ford
  else if d.pageDark e h page then
    (d.raise e pgJRNL .darkAccess (h.num * 4096 + page)).sendValue e org addr 0xFFFFFFFF ford
  else if d.implicitWaits h page off then
    d.upd h fun x => { x with ctl := { x.ctl with reads := x.ctl.reads ++ [(org, addr, ford)] } }
  else d.answerRead otp h org addr ford

/-- A read by an origin. -/
def Dev.regRead (d : Dev) (otp : Pair OtpRow) (org : Origin) (h : Half) (page off : Nat) : Dev :=
  let via := org.via h
  if via != h && d.fordUp via then d.accSend via org (.regRd org (regAddr h page off))
  else d.localRead otp org via h page off false

/-! ### The order of an origin's accesses (R347) -/

/-- Make an access that need not wait. -/
def Dev.accGo (d : Dev) (otp : Pair OtpRow) (a : Access) : Dev :=
  match a.val with
  | some v => d.regWrite otp a.org (addrHalf a.addr) (addrPage a.addr) (a.addr % 4096) v a.full
  | none => d.regRead otp a.org (addrHalf a.addr) (addrPage a.addr) (a.addr % 4096)

/-- Make the waiting accesses of a half whose origins have none under way, in order. -/
def Dev.accFlush (otp : Pair OtpRow) (h : Half) : Nat → Dev → Dev
  | 0, d => d
  | n + 1, d =>
    let c := (d.half h).ctl
    match c.waiting.find? fun a => !(c.underWay a.org) with
    | none => d
    | some a =>
      Dev.accFlush otp h n ((d.upd h fun x => { x with ctl := { x.ctl with waiting := x.ctl.waiting.erase a } }).accGo otp a)

/-- The same in both halves. -/
def Dev.accFlushAll (d : Dev) (otp : Pair OtpRow) : Dev :=
  [Half.west, Half.east].foldl (fun d h => Dev.accFlush otp h (d.half h).ctl.waiting.length d) d

/-- Accesses of an origin to a half arrive, which follow what waits where it enters, and what need not wait is made. Hardware
changes registers by no such access. -/
def Dev.accArrive (d : Dev) (otp : Pair OtpRow) (org : Origin) (h : Half) (as : List Access) : Dev :=
  match org with
  | .hw _ => d
  | _ =>
    let via := org.via h
    let d := d.accWait via as
    Dev.accFlush otp via (d.half via).ctl.waiting.length d

/-! ### Register accesses as commands -/

/-- `REGISTER_WRITE` (R350, R351). `fail` names the OTP pulse that does not take, should the write run an OTP command. -/
def execRegisterWrite (org : Origin) (h : Half) (page off : Nat) (v : Word) (full : Bool) (fail : Option Nat) (s : State) : Out :=
  onOtp fail (fun d => (d.accArrive s.otp org h
    [{ org := org, addr := regAddr h (page % 4096) (off % 4096 / 4 * 4), val := some v, full := full }]).settleT) s

/-- `EV_IRQ_WRITE` (R77). -/
def execEvIrqWrite (org : Origin) (h : Half) (c : Nat) (vec mask : BitVec 11) (s : State) : Out :=
  onDevT (fun d => if 64 ≤ c then d
    else d.accArrive s.otp org h
      [{ org := org, addr := regAddr h (pgLDP c) 0x208, val := some (BitVec.ofNat 32 (vec.toNat * 2 ^ 16 + mask.toNat)) }]) s

/-- `RTC_ALARM_WRITE` (R321): the two halves of the value, low first (R350). -/
def execRtcAlarmWrite (org : Origin) (h : Half) (v : DWord) (s : State) : Out :=
  onDevT (fun d => d.accArrive s.otp org h
    [{ org := org, addr := regAddr h pgPWRS 0x058, val := some (loWord v.toNat) },
     { org := org, addr := regAddr h pgPWRS 0x05C, val := some (hiWord v.toNat) }]) s

/-- `REGISTER_READ` (R350). -/
def execRegisterRead (org : Origin) (h : Half) (page off : Nat) (s : State) : Out :=
  onDevT (fun d => d.accArrive s.otp org h [{ org := org, addr := regAddr h (page % 4096) (off % 4096 / 4 * 4), val := none }]) s

/-! ### Register messages of the Ford (R345) -/

/-- `REG_RD`: a read arrives from the other half. -/
def execRegRd (h : Half) (s : State) : Out :=
  onDevT (fun d => match d.fordTake h 3 FordMsg.isRegRd with
    | some (.regRd org a, d) => d.localRead s.otp org h h (addrPage a) (a % 4096) true
    | _ => d) s

/-- `REG_WR`: a write arrives from the other half, which the half holding the page applies and journals. -/
def execRegWr (h : Half) (fail : Option Nat) (s : State) : Out :=
  onOtp fail (fun d => match d.fordTake h 3 FordMsg.isRegWr with
    | some (.regWr org a v, d) =>
      ((d.localWrite s.otp org h h (addrPage a) (a % 4096) v true).fordSend h (.regResp org a 0 false)).settleT
    | _ => d) s

/-- `REG_RESP`: the answer of a remote access arrives, and accesses that waited for it go on (R347). `fail` is as in
`REGISTER_WRITE`. -/
def execRegResp (h : Half) (fail : Option Nat) (s : State) : Out :=
  onOtp fail (fun d => match d.fordTake h 3 FordMsg.isRegResp with
    | some (.regResp org a v ok, d) =>
      let d := d.upd h fun x => { x with ctl := { x.ctl with remote := x.ctl.remote.erase org } }
      ((if ok then d.emit (.regValue org a v) else d).accFlushAll s.otp).settleT
    | _ => d) s

/-- One period of the 25 MHz always-on clock while the device has G0 (DESIGN CHOICE, notes/assumptions/2.md): device time and the ticks of
the RTC advance by 40 ns (R321, R349), and accesses that the end of the Ford has freed go on. -/
def State.tick (s : State) : State :=
  if s.dev.supv.g0 then
    let d := { s.dev with time := s.dev.time + 40, uptime := s.dev.uptime + 40 }
    otpRun none { s with dev := if d.west.ctl.waiting.isEmpty && d.east.ctl.waiting.isEmpty then d else (d.accFlushAll s.otp).settleT }
  else s

end Sys2Proof.Machine
end

