-- ==== Sys2Proof/Machine/Spdm.lean ====
section
/-! DEFINITION. Chapter 11: the SPDM responder (R295, R296). Message codes and field bits are those of DMTF SPDM 1.2.
Requesters: 0 to 7 the management function by global port, 8 + n LD n, 256 and above the MCTP endpoints.
Log entries of notes/assumptions that bear on this file: PRESUMED 12, PRESUMED 13. -/

namespace Sys2Proof.Machine

/-- The half that answers a requester. -/
def Dev.spdmHalf (d : Dev) (r : Nat) : Half :=
  if r < 4 then Half.west
  else if r < 8 then .east
  else if r < 256 then (match d.findLd (r - 8) with
    | some (h, _) => h
    | none => .west)
  else .west

/-- Send a response. Over MCTP a message above 1,024 bytes waits for `CHUNK_GET` (R295). -/
def Dev.spdmSend (d : Dev) (r code : Nat) (p : List Byte) : Dev :=
  if 256 ≤ r ∧ 1020 < p.length then
    ({ d with spdm := d.spdm.map fun x => if x.requester = r then { x with chunkOut := p } else x } : Dev).emit (.spdm r 0x7F [0x0F])
  else d.emit (.spdm r code p)

/-- An ERROR response: 1 InvalidRequest, 3 Busy, 4 UnexpectedRequest, 7 UnsupportedRequest. -/
def Dev.spdmError (d : Dev) (r code : Nat) : Dev := d.emit (.spdm r 0x7F [BitVec.ofNat 8 code])

/-- A requester's state. -/
def Dev.spdmOf (d : Dev) (r : Nat) : Option Spdm := d.spdm.find? fun x => x.requester == r

/-- Change a requester's state. -/
def Dev.updSpdm (d : Dev) (r : Nat) (f : Spdm → Spdm) : Dev :=
  { d with spdm := d.spdm.map fun x => if x.requester = r then f x else x }

/-- A request reaches the responder: nothing answers over MCTP without firmware, and DOE answers Busy (R296); a requester
without a state takes one of 16. -/
def Dev.spdmReq (d : Dev) (r : Nat) (f : Dev → Spdm → Dev) : Dev :=
  let h := d.spdmHalf r
  let live := ((d.half h).boot.running && !(d.mgmtLost h)) || d.served h
  if !live then (if r < 256 then d.spdmError r 3 else d)
  else
    let d := if (d.spdmOf r).isNone && decide (d.spdm.length < 16) then { d with spdm := { requester := r } :: d.spdm } else d
    match d.spdmOf r with
    | none => d.spdmError r 3
    | some x => f (d.updSpdm r fun x => { x with lastUse := d.uptime }) x

/-- A request that needs a finished negotiation. -/
def Dev.spdmReady (d : Dev) (r : Nat) (f : Dev → Dev) : Dev :=
  d.spdmReq r fun d x => if x.algs then f d else d.spdmError r 4

/-- `GET_VERSION`: resets the requester's state; version 1.2. -/
def execGetVersion (r : Nat) (s : State) : Out :=
  onDev (fun d => d.spdmReq r fun d _ =>
    (d.updSpdm r fun x => { requester := r, versioned := true, lastUse := x.lastUse }).spdmSend r 0x04 [0, 1, 0x00, 0x12]) s

/-- `GET_CAPABILITIES`: CERT_CAP, CHAL_CAP, MEAS_CAP with signature, CHUNK_CAP and SET_CERT_CAP. -/
def execGetCapabilities (r : Nat) (s : State) : Out :=
  onDev (fun d => d.spdmReq r fun d x =>
    if !x.versioned then d.spdmError r 4
    else (d.updSpdm r fun x => { x with caps := true }).spdmSend r 0x61 (leBytes 4 (2 + 4 + 16 + 2 ^ 17 + 2 ^ 19))) s

/-- `NEGOTIATE_ALGORITHMS`: ECDSA P-521, SHA-512 and measurement hash SHA-512, which the requester must offer. -/
def execNegotiateAlgorithms (r asym hash : Nat) (s : State) : Out :=
  onDev (fun d => d.spdmReq r fun d x =>
    if !x.caps then d.spdmError r 4
    else if !(asym.testBit 8) || !(hash.testBit 2) then d.spdmError r 1
    else (d.updSpdm r fun x => { x with algs := true }).spdmSend r 0x63 (1 :: leBytes 4 8 ++ leBytes 4 256 ++ leBytes 4 4)) s

/-- The chain of a slot as SPDM carries it: length, reserved, root digest, certificates. Slot 0 is empty where the leaf does
not match (R285). -/
def Dev.chain (d : Dev) (h : Half) (slot : Nat) : Option (List Byte) :=
  let c := if slot = 0 then d.flash.cert0 else d.flash.cert1
  if c.isEmpty || 1 < slot || (slot == 0 && !(d.half h).boot.certOk) then none
  else some (leBytes 2 (c.length + 68) ++ [0, 0] ++ leBytes 64 (Config.certRoot c).toNat ++ c)

/-- Digest of a chain. -/
def chainDigest (c : List Byte) : List Byte := (sha512 (c.map (·.toNat))).map (BitVec.ofNat 8)

/-- `GET_DIGESTS`. -/
def execGetDigests (r : Nat) (s : State) : Out :=
  onDev (fun d => d.spdmReady r fun d =>
    let h := d.spdmHalf r
    let cs := [0, 1].filterMap fun k => (d.chain h k).map fun c => (k, c)
    d.spdmSend r 0x01 (BitVec.ofNat 8 (cs.map fun c => 2 ^ c.1).sum :: cs.flatMap fun c => chainDigest c.2)) s

/-- `GET_CERTIFICATE` of a portion of a slot's chain. -/
def execGetCertificate (r slot off len : Nat) (s : State) : Out :=
  onDev (fun d => d.spdmReady r fun d => match d.chain (d.spdmHalf r) slot with
    | none => d.spdmError r 1
    | some c =>
      if c.length ≤ off then d.spdmError r 1
      else
        let p := (c.drop off).take len
        d.spdmSend r 0x02 (BitVec.ofNat 8 slot :: leBytes 2 p.length ++ leBytes 2 (c.length - off - p.length) ++ p)) s

/-- A signature of the identity key over a transcript of SPDM 1.2: 132 bytes. The transcript and the nonce are free. -/
def Dev.spdmSign (d : Dev) (h : Half) : List Byte × Dev :=
  let t := d.free 512
  let k := t.2.free 640
  let key := ((d.half h).boot.keys.map (·.identity)).getD 1
  ((ecdsaSign key (toScalar k.1.toNat) (toLe 64 t.1.toNat)).map (BitVec.ofNat 8), k.2)

/-- Digests of the half as bytes. -/
def Dev.measBytes (d : Dev) (h : Half) (i : Nat) : List Byte := leBytes 64 ((d.half h).boot.meas.getD (i - 1) 0).toNat

/-- `CHALLENGE`: digest of the chain, a nonce, the summary of the measurements asked for, and a signature. -/
def execChallenge (r slot : Nat) (summary : Bool) (s : State) : Out :=
  onDev (fun d => d.spdmReady r fun d =>
    let h := d.spdmHalf r
    match d.chain h slot with
    | none => d.spdmError r 1
    | some c =>
      let n := d.free 256
      let sum := if summary then
          (sha512 (((List.range 6).flatMap fun i => d.measBytes h (i + 1)).map (·.toNat))).map (BitVec.ofNat 8)
        else []
      let g := n.2.spdmSign h
      g.2.spdmSend r 0x03 (chainDigest c ++ leBytes 32 n.1.toNat ++ sum ++ [0, 0] ++ g.1)) s

/-- `DMTFSpecMeasurementValueType` of a measurement, raised bit clear: 0 immutable ROM, 1 mutable firmware, 2 hardware
configuration, 3 firmware configuration (R294). -/
def measType : Nat → Nat
  | 1 => 0 | 2 => 2 | 3 => 1 | 4 => 1 | 5 => 2 | _ => 3

/-- A measurement block. -/
def Dev.measBlock (d : Dev) (h : Half) (i : Nat) : List Byte :=
  [BitVec.ofNat 8 i, 1] ++ leBytes 2 67 ++ [BitVec.ofNat 8 (measType i)] ++ leBytes 2 64 ++ d.measBytes h i

/-- `GET_MEASUREMENTS`: the count (0), one, or all (0xFF), signed on request (R294). -/
def execGetMeasurements (r op : Nat) (signed : Bool) (s : State) : Out :=
  onDev (fun d => d.spdmReady r fun d =>
    let h := d.spdmHalf r
    if op != 0xFF && 6 < op then d.spdmError r 1
    else
      let is := if op = 0 then [] else if op = 0xFF then [1, 2, 3, 4, 5, 6] else [op]
      let body := is.flatMap fun i => d.measBlock h i
      let n := d.free 256
      let g := if signed then n.2.spdmSign h else ([], n.2)
      g.2.spdmSend r 0x60 (BitVec.ofNat 8 (if op = 0 then 6 else is.length) :: leBytes 3 body.length ++ body ++ leBytes 32 n.1.toNat
        ++ [0, 0] ++ g.1)) s

/-- Write the operator chain: slot 1 only, in PRODUCTION, with the identity key in its leaf. -/
def Dev.setCert (d : Dev) (o : OtpRow) (r slot : Nat) (chain : List Byte) : Dev :=
  let key := ((d.half (d.spdmHalf r)).boot.keys.map (·.identity)).getD 1
  if slot != 1 || o.life != 2 || decide (0x8000 < chain.length) || !(Config.certOk chain)
      || Config.certLeafKey chain != ecPub key then d.spdmError r 1
  else { d with flash := { d.flash with cert1 := chain } }.spdmSend r 0x6E [1]

/-- `SET_CERTIFICATE`. -/
def execSetCertificate (r slot : Nat) (chain : List Byte) (s : State) : Out :=
  onDev (fun d => d.spdmReady r fun d => d.setCert (s.otp.get (d.spdmHalf r)) r slot chain) s

/-- `CHUNK_SEND`: a chunk of a large request, which runs with its last chunk. A `SET_CERTIFICATE` is the one request that
can need it. -/
def execChunkSend (r : Nat) (last : Bool) (bytes : List Byte) (s : State) : Out :=
  onDev (fun d => d.spdmReady r fun d => match d.spdmOf r with
    | none => d
    | some x =>
      let all := x.chunkIn ++ bytes
      if !last then (d.updSpdm r fun x => { x with chunkIn := all }).spdmSend r 0x05 []
      else
        let d := (d.updSpdm r fun x => { x with chunkIn := [] }).spdmSend r 0x05 []
        if all.getD 1 0 = 0xEE then
          d.setCert (s.otp.get (d.spdmHalf r)) r ((all.getD 2 0).toNat % 16) (all.drop 4)
        else d.spdmError r 7) s

/-- `CHUNK_GET`: the next chunk of a large response. -/
def execChunkGet (r : Nat) (s : State) : Out :=
  onDev (fun d => d.spdmReady r fun d => match d.spdmOf r with
    | none => d
    | some x =>
      if x.chunkOut.isEmpty then d.spdmError r 4
      else (d.updSpdm r fun x => { x with chunkOut := x.chunkOut.drop 1000 }).spdmSend r 0x06
        (BitVec.ofNat 8 (bnum (decide (x.chunkOut.length ≤ 1000))) :: x.chunkOut.take 1000)) s

/-- `SPDM_STATE_TIMEOUT` (R296): a state idle for 60 s is released. -/
def execSpdmStateTimeout (r : Nat) (s : State) : Out := onDev (fun d => d.spdmDrop fun q => q == r) s

/-- `SPDM_UNSUPPORTED_REQUEST` (R295). -/
def execSpdmUnsupportedRequest (r : Nat) (s : State) : Out :=
  onDev (fun d => d.spdmReq r fun d _ => d.spdmError r 7) s

end Sys2Proof.Machine
end

