-- ==== Sys2Proof/Machine/Dispatch.lean ====
section
/-! DEFINITION. Dispatch: one arm per command of the opcode table, each one direct call of its meaning. -/

namespace Sys2Proof.Machine

/-- A command's effect on everything but the queue. -/
def exec (i : Instr) (s : State) : Host.Outcome State Fault Refusal :=
  match i with
  | .hostRead h port sub ldid tag hpa => Sys2Proof.Machine.execHostRead h port sub ldid tag hpa s
  | .hostWrite h port sub ldid tag hpa data => Sys2Proof.Machine.execHostWrite h port sub ldid tag hpa data s
  | .hostPartialWrite h port sub ldid tag hpa data mask => Sys2Proof.Machine.execHostPartialWrite h port sub ldid tag hpa data mask s
  | .manifestEntryFetchDone h verdict loc cw sy => Sys2Proof.Machine.execManifestEntryFetchDone h verdict loc cw sy s
  | .dramReadDone h err => Sys2Proof.Machine.execDramReadDone h err s
  | .healWriteback h => Sys2Proof.Machine.execHealWriteback h s
  | .fordFlitBad h => Sys2Proof.Machine.execFordFlitBad h s
  | .fordReplayRequest h m => Sys2Proof.Machine.execFordReplayRequest h m s
  | .fordLaneRepair h m => Sys2Proof.Machine.execFordLaneRepair h m s
  | .fordRetrainDone lanes => Sys2Proof.Machine.execFordRetrainDone lanes s
  | .fordLost => Sys2Proof.Machine.execFordLost s
  | .fordRetrainCmd org h => Sys2Proof.Machine.execFordRetrainCmd org h s
  | .fordModuleTrainDone m lanesWest lanesEast => Sys2Proof.Machine.execFordModuleTrainDone m lanesWest lanesEast s
  | .fordTrainRetry lanes => Sys2Proof.Machine.execFordTrainRetry lanes s
  | .sailingLengthElapsed h => Sys2Proof.Machine.execSailingLengthElapsed h s
  | .beaconOpen h => Sys2Proof.Machine.execBeaconOpen h s
  | .beaconEcho h => Sys2Proof.Machine.execBeaconEcho h s
  | .reservationRecordDone h => Sys2Proof.Machine.execReservationRecordDone h s
  | .sealReady h => Sys2Proof.Machine.execSealReady h s
  | .fence org h c token => Sys2Proof.Machine.execFence org h c token s
  | .fenceTimeout h c => Sys2Proof.Machine.execFenceTimeout h c s
  | .gpfPhase1 => Sys2Proof.Machine.execGpfPhase1 s
  | .gpfPhase2 => Sys2Proof.Machine.execGpfPhase2 s
  | .gpfLate => Sys2Proof.Machine.execGpfLate s
  | .acceptLocal org h => Sys2Proof.Machine.execAcceptLocal org h s
  | .memRd h => Sys2Proof.Machine.execMemRd h s
  | .memWr h => Sys2Proof.Machine.execMemWr h s
  | .memWrp h => Sys2Proof.Machine.execMemWrp h s
  | .memRdData h => Sys2Proof.Machine.execMemRdData h s
  | .memWrAck h => Sys2Proof.Machine.execMemWrAck h s
  | .regRd h => Sys2Proof.Machine.execRegRd h s
  | .regWr h fail => Sys2Proof.Machine.execRegWr h fail s
  | .regResp h fail => Sys2Proof.Machine.execRegResp h fail s
  | .mgmtHeartbeatTimer h => Sys2Proof.Machine.execMgmtHeartbeatTimer h s
  | .mgmtHeartbeat h => Sys2Proof.Machine.execMgmtHeartbeat h s
  | .mgmtPeerLost h => Sys2Proof.Machine.execMgmtPeerLost h s
  | .mgmtWatchdog h => Sys2Proof.Machine.execMgmtWatchdog h s
  | .lockstepMismatch h => Sys2Proof.Machine.execLockstepMismatch h s
  | .mgmtRestored h => Sys2Proof.Machine.execMgmtRestored h s
  | .restartPeer org h => Sys2Proof.Machine.execRestartPeer org h s
  | .islandFault h idx => Sys2Proof.Machine.execIslandFault h idx s
  | .islandWakeDone h idx => Sys2Proof.Machine.execIslandWakeDone h idx s
  | .islandResetDone h idx => Sys2Proof.Machine.execIslandResetDone h idx s
  | .alwaysOnSilent h => Sys2Proof.Machine.execAlwaysOnSilent h s
  | .linkUp h port sub speed width flit256 => Sys2Proof.Machine.execLinkUp h port sub speed width flit256 s
  | .linkDown h port sub => Sys2Proof.Machine.execLinkDown h port sub s
  | .perstNAssert h port => Sys2Proof.Machine.execPerstNAssert h port s
  | .perstNDeassert h port => Sys2Proof.Machine.execPerstNDeassert h port s
  | .hotReset h port sub => Sys2Proof.Machine.execHotReset h port sub s
  | .cxlReset h c => Sys2Proof.Machine.execCxlReset h c s
  | .flr h c => Sys2Proof.Machine.execFlr h c s
  | .hdmDecoderCommit h c idx base size skip ways gran hdmH => Sys2Proof.Machine.execHdmDecoderCommit h c idx base size skip ways gran hdmH s
  | .getEventRecords h c log => Sys2Proof.Machine.execGetEventRecords h c log s
  | .clearEventRecords h c log all handles => Sys2Proof.Machine.execClearEventRecords h c log all handles s
  | .getEventInterruptPolicy h c => Sys2Proof.Machine.execGetEventInterruptPolicy h c s
  | .setEventInterruptPolicy h c policy => Sys2Proof.Machine.execSetEventInterruptPolicy h c policy s
  | .getFwInfo h c => Sys2Proof.Machine.execGetFwInfo h c s
  | .getTimestamp h c => Sys2Proof.Machine.execGetTimestamp h c s
  | .setTimestamp h c t => Sys2Proof.Machine.execSetTimestamp h c t s
  | .getSupportedLogs h c => Sys2Proof.Machine.execGetSupportedLogs h c s
  | .getLog h c cel off len => Sys2Proof.Machine.execGetLog h c cel off len s
  | .identifyMemoryDevice h c => Sys2Proof.Machine.execIdentifyMemoryDevice h c s
  | .getPartitionInfo h c => Sys2Proof.Machine.execGetPartitionInfo h c s
  | .getDynamicCapacityConfiguration h c => Sys2Proof.Machine.execGetDynamicCapacityConfiguration h c s
  | .getDynamicCapacityExtentList h c start count => Sys2Proof.Machine.execGetDynamicCapacityExtentList h c start count s
  | .dcAdd ld region len => Sys2Proof.Machine.execDcAdd ld region len s
  | .addDynamicCapacityResponse h c runs => Sys2Proof.Machine.execAddDynamicCapacityResponse h c runs s
  | .releaseDynamicCapacity h c runs => Sys2Proof.Machine.execReleaseDynamicCapacity h c runs s
  | .dcReleaseEffect h c => Sys2Proof.Machine.execDcReleaseEffect h c s
  | .getLsa h c off len => Sys2Proof.Machine.execGetLsa h c off len s
  | .setLsa h c off bytes => Sys2Proof.Machine.execSetLsa h c off bytes s
  | .getHealthInfo h c => Sys2Proof.Machine.execGetHealthInfo h c s
  | .getAlertConfiguration h c => Sys2Proof.Machine.execGetAlertConfiguration h c s
  | .setAlertConfiguration h c cfg => Sys2Proof.Machine.execSetAlertConfiguration h c cfg s
  | .getShutdownState h c => Sys2Proof.Machine.execGetShutdownState h c s
  | .setShutdownState h c dirty => Sys2Proof.Machine.execSetShutdownState h c dirty s
  | .getPoisonList h c lda len => Sys2Proof.Machine.execGetPoisonList h c lda len s
  | .injectPoison h c lda => Sys2Proof.Machine.execInjectPoison h c lda s
  | .clearPoison h c lda data => Sys2Proof.Machine.execClearPoison h c lda data s
  | .getScanMediaCapabilities h c lda len => Sys2Proof.Machine.execGetScanMediaCapabilities h c lda len s
  | .scanMedia h c lda len => Sys2Proof.Machine.execScanMedia h c lda len s
  | .scanMediaDone h c => Sys2Proof.Machine.execScanMediaDone h c s
  | .getScanMediaResults h c => Sys2Proof.Machine.execGetScanMediaResults h c s
  | .sanitize h c => Sys2Proof.Machine.execSanitize h c s
  | .secureErase h c => Sys2Proof.Machine.execSecureErase h c s
  | .sanitizeWalkDone h c => Sys2Proof.Machine.execSanitizeWalkDone h c s
  | .mailboxUnsupported h c op => Sys2Proof.Machine.execMailboxUnsupported h c op s
  | .cdatRequest h c => Sys2Proof.Machine.execCdatRequest h c s
  | .evIrqWrite org h c vec mask => Sys2Proof.Machine.execEvIrqWrite org h c vec mask s
  | .promotionReadDone h ok => Sys2Proof.Machine.execPromotionReadDone h ok s
  | .promotionFrameWritten h => Sys2Proof.Machine.execPromotionFrameWritten h s
  | .sinkStart h => Sys2Proof.Machine.execSinkStart h s
  | .sinkProgramDone h t ok plane => Sys2Proof.Machine.execSinkProgramDone h t ok plane s
  | .eviction h => Sys2Proof.Machine.execEviction h s
  | .frameFormatted h k => Sys2Proof.Machine.execFrameFormatted h k s
  | .ageTick h => Sys2Proof.Machine.execAgeTick h s
  | .manifestCheckpoint h => Sys2Proof.Machine.execManifestCheckpoint h s
  | .streamOpen org h c k => Sys2Proof.Machine.execStreamOpen org h c k s
  | .streamClose org h c k => Sys2Proof.Machine.execStreamClose org h c k s
  | .streamIdleClose h c k => Sys2Proof.Machine.execStreamIdleClose h c k s
  | .pinTile org h => Sys2Proof.Machine.execPinTile org h s
  | .unpinTile org h => Sys2Proof.Machine.execUnpinTile org h s
  | .sinkTile org h => Sys2Proof.Machine.execSinkTile org h s
  | .evictTile org h => Sys2Proof.Machine.execEvictTile org h s
  | .retireFrame org h => Sys2Proof.Machine.execRetireFrame org h s
  | .retireBank org h => Sys2Proof.Machine.execRetireBank org h s
  | .manfPeek org h tile => Sys2Proof.Machine.execManfPeek org h tile s
  | .scrubRead h k err unit verdict cw sy => Sys2Proof.Machine.execScrubRead h k err unit verdict cw sy s
  | .sramSweep h flips dirs rows => Sys2Proof.Machine.execSramSweep h flips dirs rows s
  | .repeatFilterExpiry h => Sys2Proof.Machine.execRepeatFilterExpiry h s
  | .lineRepairNandDone h ok => Sys2Proof.Machine.execLineRepairNandDone h ok s
  | .lineRecallAfterSeal h => Sys2Proof.Machine.execLineRecallAfterSeal h s
  | .repairHoldExpiry h line => Sys2Proof.Machine.execRepairHoldExpiry h line s
  | .writeRaw org h => Sys2Proof.Machine.execWriteRaw org h s
  | .writeEnc org h => Sys2Proof.Machine.execWriteEnc org h s
  | .readDecode org h => Sys2Proof.Machine.execReadDecode org h s
  | .readRaw org h => Sys2Proof.Machine.execReadRaw org h s
  | .relocate org h sub => Sys2Proof.Machine.execRelocate org h sub s
  | .sramInj org h => Sys2Proof.Machine.execSramInj org h s
  | .scorSel org h idx => Sys2Proof.Machine.execScorSel org h idx s
  | .scorAck org h idx => Sys2Proof.Machine.execScorAck org h idx s
  | .refresh h k => Sys2Proof.Machine.execRefresh h k s
  | .zqCalibration h k => Sys2Proof.Machine.execZqCalibration h k s
  | .alertN h c again late => Sys2Proof.Machine.execAlertN h c again late s
  | .caRetrainDone h c ok0 ok1 => Sys2Proof.Machine.execCaRetrainDone h c ok0 ok1 s
  | .selfRefreshEntry h k => Sys2Proof.Machine.execSelfRefreshEntry h k s
  | .freqSel org h c v => Sys2Proof.Machine.execFreqSel org h c v s
  | .freqChangeDone h => Sys2Proof.Machine.execFreqChangeDone h s
  | .driftMeasure h k steps => Sys2Proof.Machine.execDriftMeasure h k steps s
  | .driftRetrainSlice h k last ok new => Sys2Proof.Machine.execDriftRetrainSlice h k last ok new s
  | .dtrnWritePattern org h c bursts rep => Sys2Proof.Machine.execDtrnWritePattern org h c bursts rep s
  | .dtrnReadCompare org h c bursts rep => Sys2Proof.Machine.execDtrnReadCompare org h c bursts rep s
  | .dtrnWriteReadCompare org h c bursts rep => Sys2Proof.Machine.execDtrnWriteReadCompare org h c bursts rep s
  | .dtrnTrainingPatternRead org h c bursts rep => Sys2Proof.Machine.execDtrnTrainingPatternRead org h c bursts rep s
  | .dtrnCsLoopback org h c bursts rep => Sys2Proof.Machine.execDtrnCsLoopback org h c bursts rep s
  | .dtrnCaLoopback org h c bursts rep => Sys2Proof.Machine.execDtrnCaLoopback org h c bursts rep s
  | .dtrnWriteLevelSample org h c bursts rep => Sys2Proof.Machine.execDtrnWriteLevelSample org h c bursts rep s
  | .dtrnGateSample org h c bursts rep => Sys2Proof.Machine.execDtrnGateSample org h c bursts rep s
  | .dtrnDqsOscillator org h c bursts rep => Sys2Proof.Machine.execDtrnDqsOscillator org h c bursts rep s
  | .dtrnRunDone h c errs val => Sys2Proof.Machine.execDtrnRunDone h c errs val s
  | .dtrnMrwWrite org h c rcd rank addr val => Sys2Proof.Machine.execDtrnMrwWrite org h c rcd rank addr val s
  | .dtrnMrwRead org h c rcd rank addr => Sys2Proof.Machine.execDtrnMrwRead org h c rcd rank addr s
  | .preload org h way => Sys2Proof.Machine.execPreload org h way s
  | .lock org h way => Sys2Proof.Machine.execLock org h way s
  | .unlock org h way => Sys2Proof.Machine.execUnlock org h way s
  | .landCmdDone h => Sys2Proof.Machine.execLandCmdDone h s
  | .wayDisabled h way => Sys2Proof.Machine.execWayDisabled h way s
  | .wayTallyExpiry h way => Sys2Proof.Machine.execWayTallyExpiry h way s
  | .drainDone h => Sys2Proof.Machine.execDrainDone h s
  | .evictionBufferFree h => Sys2Proof.Machine.execEvictionBufferFree h s
  | .ferryCodeword h bits fixed => Sys2Proof.Machine.execFerryCodeword h bits fixed s
  | .linkCtlDue h => Sys2Proof.Machine.execLinkCtlDue h s
  | .linkCtl h => Sys2Proof.Machine.execLinkCtl h s
  | .mirrorLines h => Sys2Proof.Machine.execMirrorLines h s
  | .sailingClose h => Sys2Proof.Machine.execSailingClose h s
  | .sibVerified h => Sys2Proof.Machine.execSibVerified h s
  | .sailingApplyDone h bad => Sys2Proof.Machine.execSailingApplyDone h bad s
  | .sailingAck h => Sys2Proof.Machine.execSailingAck h s
  | .lineRecallReq h => Sys2Proof.Machine.execLineRecallReq h s
  | .lineRecallResp h => Sys2Proof.Machine.execLineRecallResp h s
  | .tileStream h => Sys2Proof.Machine.execTileStream h s
  | .tileStreamPull h => Sys2Proof.Machine.execTileStreamPull h s
  | .tileCaptureDone h => Sys2Proof.Machine.execTileCaptureDone h s
  | .resyncBegin h => Sys2Proof.Machine.execResyncBegin h s
  | .resyncWalkDone h => Sys2Proof.Machine.execResyncWalkDone h s
  | .resyncEnd h => Sys2Proof.Machine.execResyncEnd h s
  | .heartbeatTimer h => Sys2Proof.Machine.execHeartbeatTimer h s
  | .heartbeat h => Sys2Proof.Machine.execHeartbeat h s
  | .twinLost h => Sys2Proof.Machine.execTwinLost h s
  | .rekeyInitial h => Sys2Proof.Machine.execRekeyInitial h s
  | .rekeyOffer h => Sys2Proof.Machine.execRekeyOffer h s
  | .rekeySwitch h => Sys2Proof.Machine.execRekeySwitch h s
  | .rekeySequenceDue h => Sys2Proof.Machine.execRekeySequenceDue h s
  | .rekeyTimeout h => Sys2Proof.Machine.execRekeyTimeout h s
  | .keyEventLoadPhase h => Sys2Proof.Machine.execKeyEventLoadPhase h s
  | .keyEventErase h => Sys2Proof.Machine.execKeyEventErase h s
  | .keyEventRetire h => Sys2Proof.Machine.execKeyEventRetire h s
  | .promote org h => Sys2Proof.Machine.execPromote org h s
  | .promoteRecordDone => Sys2Proof.Machine.execPromoteRecordDone s
  | .feryRekey org h => Sys2Proof.Machine.execFeryRekey org h s
  | .resyncStart org h => Sys2Proof.Machine.execResyncStart org h s
  | .feryRetrain org h => Sys2Proof.Machine.execFeryRetrain org h s
  | .feryRetrainAckWait h => Sys2Proof.Machine.execFeryRetrainAckWait h s
  | .ferryLaneTrainingDone h lanes => Sys2Proof.Machine.execFerryLaneTrainingDone h lanes s
  | .sessionUp h mode boundary split lanes single backed => Sys2Proof.Machine.execSessionUp h mode boundary split lanes single backed s
  | .ferryRetryTimer h => Sys2Proof.Machine.execFerryRetryTimer h s
  | .readTile h isle ring desc => Sys2Proof.Machine.execReadTile h isle ring desc s
  | .programTile h isle ring desc img => Sys2Proof.Machine.execProgramTile h isle ring desc img s
  | .eraseBlock h isle ring sys desc => Sys2Proof.Machine.execEraseBlock h isle ring sys desc s
  | .readPageRaw h isle ring desc => Sys2Proof.Machine.execReadPageRaw h isle ring desc s
  | .programPageRaw h isle ring desc bytes => Sys2Proof.Machine.execProgramPageRaw h isle ring desc bytes s
  | .setFeature h isle ring desc => Sys2Proof.Machine.execSetFeature h isle ring desc s
  | .getParam h isle ring desc => Sys2Proof.Machine.execGetParam h isle ring desc s
  | .nandOperationDone h lun r => Sys2Proof.Machine.execNandOperationDone h lun r s
  | .nandSuspendDone h lun => Sys2Proof.Machine.execNandSuspendDone h lun s
  | .flashTimeout h lun => Sys2Proof.Machine.execFlashTimeout h lun s
  | .eraseOverdue h lun => Sys2Proof.Machine.execEraseOverdue h lun s
  | .flashChannelRetrain h c => Sys2Proof.Machine.execFlashChannelRetrain h c s
  | .flashChannelTrainDone h c ok cause => Sys2Proof.Machine.execFlashChannelTrainDone h c ok cause s
  | .format org h => Sys2Proof.Machine.execFormat org h s
  | .formatDone h pages stripes bits luns bad => Sys2Proof.Machine.execFormatDone h pages stripes bits luns bad s
  | .diagGo org h isle => Sys2Proof.Machine.execDiagGo org h isle s
  | .establish org h => Sys2Proof.Machine.execEstablish org h s
  | .keyLoad org h slot phase => Sys2Proof.Machine.execKeyLoad org h slot phase s
  | .keyGenerate org h slot phase => Sys2Proof.Machine.execKeyGenerate org h slot phase s
  | .keySweep org h slot => Sys2Proof.Machine.execKeySweep org h slot s
  | .keyErase org h slot => Sys2Proof.Machine.execKeyErase org h slot s
  | .keyRetire org h slot => Sys2Proof.Machine.execKeyRetire org h slot s
  | .keySelect org h slot => Sys2Proof.Machine.execKeySelect org h slot s
  | .loadDeferredApply => Sys2Proof.Machine.execLoadDeferredApply s
  | .keyEraseRecordDone slot => Sys2Proof.Machine.execKeyEraseRecordDone slot s
  | .walkDone h slot => Sys2Proof.Machine.execWalkDone h slot s
  | .sweepDone => Sys2Proof.Machine.execSweepDone s
  | .xtsEnc h org req src => Sys2Proof.Machine.execXtsEnc h org req src s
  | .xtsDec h org req src => Sys2Proof.Machine.execXtsDec h org req src s
  | .cmacGen h org req src => Sys2Proof.Machine.execCmacGen h org req src s
  | .cmacVerify h org req src => Sys2Proof.Machine.execCmacVerify h org req src s
  | .tileSeal h org req src => Sys2Proof.Machine.execTileSeal h org req src s
  | .tileOpen h org req src => Sys2Proof.Machine.execTileOpen h org req src s
  | .tileVerify h org req src => Sys2Proof.Machine.execTileVerify h org req src s
  | .wrap h org req src => Sys2Proof.Machine.execWrap h org req src s
  | .unwrap h org req src => Sys2Proof.Machine.execUnwrap h org req src s
  | .cipherRequestDone h core elapsed => Sys2Proof.Machine.execCipherRequestDone h core elapsed s
  | .cipherAgeing h => Sys2Proof.Machine.execCipherAgeing h s
  | .coreFailed h core => Sys2Proof.Machine.execCoreFailed h core s
  | .svnAdvance org h arg fail => Sys2Proof.Machine.execSvnAdvance org h arg fail s
  | .revokeSigner org h arg fail => Sys2Proof.Machine.execRevokeSigner org h arg fail s
  | .lcAdvance org h arg fail => Sys2Proof.Machine.execLcAdvance org h arg fail s
  | .lockStrap org h arg fail => Sys2Proof.Machine.execLockStrap org h arg fail s
  | .bootMeasSel org h idx => Sys2Proof.Machine.execBootMeasSel org h idx s
  | .romBoot h us => Sys2Proof.Machine.execRomBoot h us s
  | .recoveryBoot img us => Sys2Proof.Machine.execRecoveryBoot img us s
  | .transferFw img => Sys2Proof.Machine.execTransferFw img s
  | .activateFw online => Sys2Proof.Machine.execActivateFw online s
  | .getVersion r => Sys2Proof.Machine.execGetVersion r s
  | .getCapabilities r => Sys2Proof.Machine.execGetCapabilities r s
  | .negotiateAlgorithms r asym hash => Sys2Proof.Machine.execNegotiateAlgorithms r asym hash s
  | .getDigests r => Sys2Proof.Machine.execGetDigests r s
  | .getCertificate r slot off len => Sys2Proof.Machine.execGetCertificate r slot off len s
  | .challenge r slot summary => Sys2Proof.Machine.execChallenge r slot summary s
  | .getMeasurements r op signed => Sys2Proof.Machine.execGetMeasurements r op signed s
  | .setCertificate r slot chain => Sys2Proof.Machine.execSetCertificate r slot chain s
  | .chunkSend r last bytes => Sys2Proof.Machine.execChunkSend r last bytes s
  | .chunkGet r => Sys2Proof.Machine.execChunkGet r s
  | .spdmStateTimeout r => Sys2Proof.Machine.execSpdmStateTimeout r s
  | .pwrfailNFall => Sys2Proof.Machine.execPwrfailNFall s
  | .pwrfailGlitch => Sys2Proof.Machine.execPwrfailGlitch s
  | .rideThroughExpiry => Sys2Proof.Machine.execRideThroughExpiry s
  | .powerDown org h => Sys2Proof.Machine.execPowerDown org h s
  | .powerOff org h => Sys2Proof.Machine.execPowerOff org h s
  | .lfFlushDone h => Sys2Proof.Machine.execLfFlushDone h s
  | .lfPushEnd h => Sys2Proof.Machine.execLfPushEnd h s
  | .lfEvacuateDone h fails => Sys2Proof.Machine.execLfEvacuateDone h fails s
  | .voyageRecordWritten h copies us => Sys2Proof.Machine.execVoyageRecordWritten h copies us s
  | .rtcAlarm h => Sys2Proof.Machine.execRtcAlarm h s
  | .rtcAlarmWrite org h v => Sys2Proof.Machine.execRtcAlarmWrite org h v s
  | .coldStart h e => Sys2Proof.Machine.execColdStart h e s
  | .rearmDone h => Sys2Proof.Machine.execRearmDone h s
  | .ddrIdleGate h idx => Sys2Proof.Machine.execDdrIdleGate h idx s
  | .reHoming h => Sys2Proof.Machine.execReHoming h s
  | .registerWrite org h page off v full fail => Sys2Proof.Machine.execRegisterWrite org h page off v full fail s
  | .castBegin org h => Sys2Proof.Machine.execCastBegin org h s
  | .castCommit org h => Sys2Proof.Machine.execCastCommit org h s
  | .castRollback org h => Sys2Proof.Machine.execCastRollback org h s
  | .castTimeout idx => Sys2Proof.Machine.execCastTimeout idx s
  | .castBoundaryApply h => Sys2Proof.Machine.execCastBoundaryApply h s
  | .chartRecordDone idx => Sys2Proof.Machine.execChartRecordDone idx s
  | .jrnlSel org h seq => Sys2Proof.Machine.execJrnlSel org h seq s
  | .jrnlEvSel org h seq => Sys2Proof.Machine.execJrnlEvSel org h seq s
  | .journalSpill h ok => Sys2Proof.Machine.execJournalSpill h ok s
  | .seqInRise => Sys2Proof.Machine.execSeqInRise s
  | .inputLoss => Sys2Proof.Machine.execInputLoss s
  | .groupGood n flashWest flashEast => Sys2Proof.Machine.execGroupGood n flashWest flashEast s
  | .groupTimeout n rail => Sys2Proof.Machine.execGroupTimeout n rail s
  | .supplyFault h rail kind => Sys2Proof.Machine.execSupplyFault h rail kind s
  | .railFallen n => Sys2Proof.Machine.execRailFallen n s
  | .fallSlow rail => Sys2Proof.Machine.execFallSlow rail s
  | .seqOutDelay => Sys2Proof.Machine.execSeqOutDelay s
  | .supvRelease org h => Sys2Proof.Machine.execSupvRelease org h s
  | .clrCounts org h => Sys2Proof.Machine.execClrCounts org h s
  | .supvCntSel org h rail => Sys2Proof.Machine.execSupvCntSel org h rail s
  | .counterFlush => Sys2Proof.Machine.execCounterFlush s
  | .housekeepingRound h diodes volts currs spd drift late => Sys2Proof.Machine.execHousekeepingRound h diodes volts currs spd drift late s
  | .thermalTrip h diode temp => Sys2Proof.Machine.execThermalTrip h diode temp s
  | .resetNLow => Sys2Proof.Machine.execResetNLow s
  | .resetNHigh strapsWest strapsEast => Sys2Proof.Machine.execResetNHigh strapsWest strapsEast s
  | .fordIdleFlit h => Sys2Proof.Machine.execFordIdleFlit h s
  | .fordUp lanes => Sys2Proof.Machine.execFordUp lanes s
  | .castPrepare h => Sys2Proof.Machine.execCastPrepare h s
  | .castVote h => Sys2Proof.Machine.execCastVote h s
  | .castApply h => Sys2Proof.Machine.execCastApply h s
  | .ferryAlignmentBlock h lane bits bip => Sys2Proof.Machine.execFerryAlignmentBlock h lane bits bip s
  | .resyncWalkTile h => Sys2Proof.Machine.execResyncWalkTile h s
  | .sweepWalkTile h => Sys2Proof.Machine.execSweepWalkTile h s
  | .retirementCopyDone h => Sys2Proof.Machine.execRetirementCopyDone h s
  | .registerRead org h page off => Sys2Proof.Machine.execRegisterRead org h page off s
  | .bmcBusReset => Sys2Proof.Machine.execBmcBusReset s
  | .inputPowerReturn => Sys2Proof.Machine.execInputPowerReturn s
  | .g0Good => Sys2Proof.Machine.execG0Good s
  | .g0Removed => Sys2Proof.Machine.execG0Removed s
  | .spdmUnsupportedRequest r => Sys2Proof.Machine.execSpdmUnsupportedRequest r s
  | .setdasa h addr => Sys2Proof.Machine.execSetdasa h addr s

end Sys2Proof.Machine
end

