-- ==== Sys2Proof/Safety.lean ====
section
/-! DEFINITION. What claims about a run are stated in: an outcome that is a next state, and one that is neither a fault nor a
refusal. -/

namespace Sys2Proof.Machine

/-- The outcome is a next state. -/
def isNext (o : Host.Outcome State Fault Refusal) : Bool :=
  match o with
  | .next _ => true
  | _ => false

/-- A state from which the next step does not stop. -/
def State.safe (s : State) : Prop := isNext (step s) = true

/-- The command completes: the next state differs from `s` in the device alone, which is then `d`. -/
def Runs (i : Instr) (s : State) (d : Dev) : Prop := exec i s = .next { s with dev := d }

/-- Commands that can program fuses: the four OTP commands, the ROM's exchange, and a register write that holds one. -/
def mayBurn : Instr → Bool
  | .svnAdvance .. | .revokeSigner .. | .lcAdvance .. | .lockStrap .. | .romBoot .. | .registerWrite .. | .regWr .. | .regResp .. => true
  | _ => false

/-- A register command of an origin is taken at once by the half of its page: the origin enters there, no earlier access of it is
under way, no refusal of R351 to R356 stands, and it has no OPEN transaction (R347, R351). -/
def Dev.takes (d : Dev) (org : Origin) (h : Half) (page off : Nat) (journaled : Bool := true) : Bool :=
  org.via h == h && !(d.accBusy h org) && d.gate org h h page off journaled == .pass && (d.openTxn org).isNone

/-- The device as a register command that is taken finds it: a gated island awake, and the COMMAND entry written (R354). -/
def Dev.entry (d : Dev) (org : Origin) (h : Half) (page off v : Nat) (wide : Bool := false) : Dev :=
  (d.wake h (pageIsland page)).journalCmd org h page off v wide rCOMMAND

/-- The device after a register command that its act refuses: a gated island awake, and the REFUSED entry written (R351). -/
def Dev.refusal (d : Dev) (org : Origin) (h : Half) (page off v : Nat) (wide : Bool := false) : Dev :=
  (d.wake h (pageIsland page)).journalCmd org h page off v wide rREFUSED

/-- What holds a half's tiles and keys: Manifest, frames, Landing cache, NAND, and the cipher engine with its key slots. -/
def HalfState.stores (x : HalfState) : TierHalf × LandHalf × FlashHalf × CiphHalf := (x.tier, x.land, x.flash, x.ciph)

/-- The same of both halves. -/
def Dev.stores (d : Dev) : (TierHalf × LandHalf × FlashHalf × CiphHalf) × (TierHalf × LandHalf × FlashHalf × CiphHalf) :=
  (d.west.stores, d.east.stores)

end Sys2Proof.Machine
end

