-- ==== Sys2Proof/Certificates/Slice0/Obligations.lean ====
section
/-! DEFINITION. The statements for the provers: `Claim.X` is a statement about one group of commands, and `Obligations.Y` is what is to be
proved. -/

open Sys2Proof Sys2Proof.Machine

/-! ### The queue and every command -/

/-- The command at the front of the queue runs with the queue's rest. -/
def Obligations.StepRunsFrontCommand : Prop :=
  ∀ (c : Instr) (s : State), step { s with pending := c :: s.pending } = exec c s

/-- On an empty queue a step is a period of the 25 MHz clock: device time and the RTC's count advance by 40 ns while the device
has G0, and nothing else changes where no register access waits (the model's choice: notes/assumptions/2.md). -/
def Obligations.EmptyQueueTicks : Prop :=
  ∀ s : State, s.pending = [] → s.dev.otpc = none → s.dev.west.ctl.waiting = [] → s.dev.east.ctl.waiting = [] →
    (s.dev.supv.g0 = true → step s = .next { s with dev := { s.dev with time := s.dev.time + 40, uptime := s.dev.uptime + 40 } }) ∧
    (s.dev.supv.g0 = false → step s = .next s)

/-- Every command completes in every state, leaves the queue alone, and, unless it can program fuses, leaves both OTP rows as
they are. -/
def Obligations.EveryCommandCompletes : Prop :=
  ∀ (i : Instr) (s : State), ∃ t, exec i s = .next t ∧ t.pending = s.pending ∧ (mayBurn i = false → t.otp = s.otp)

/-! ### Mailboxes (R78 to R83) and CDAT (R88) -/

/-- The mailbox commands that report answer Success with one response and change nothing else. -/
def Claim.MailboxReportsChangeNothing : Prop :=
  ∀ (h : Half) (c : Nat) (s : State), s.dev.mboxOk h c = true →
    let d := s.dev
    let x := d.ldc h c
    let tells (i : Instr) (op : Nat) (p : List Nat) : Prop := Runs i s (d.emit (.mailbox (d.ldNum h c) op 0 p))
    tells (.getEventInterruptPolicy h c) 0x0102 [x.eventPolicy.toNat] ∧
    tells (.getFwInfo h c) 0x0200 [2, (d.half h).boot.slot + 1, (d.half h).boot.version] ∧
    tells (.getTimestamp h c) 0x0300 [d.time] ∧
    tells (.getAlertConfiguration h c) 0x4201 [x.alertConfig.toNat] ∧
    tells (.getShutdownState h c) 0x4203 [if x.shutdownDirty then 1 else 0] ∧
    tells (.getPartitionInfo h c) 0x4100 [0, (d.reg h (pgLDP c) 0x050).toNat, 0, 0] ∧
    (∀ lda len, tells (.getScanMediaCapabilities h c lda len) 0x4303 [(len + 19999999) / 20000000]) ∧
    (∃ p, tells (.getSupportedLogs h c) 0x0400 p) ∧ (∃ p, tells (.identifyMemoryDevice h c) 0x4000 p) ∧
    (∃ p, tells (.getDynamicCapacityConfiguration h c) 0x4800 p) ∧ (∃ p, tells (.getHealthInfo h c) 0x4200 p) ∧
    (∃ p, tells (.getScanMediaResults h c) 0x4305 p) ∧ (∀ lda len, ∃ p, tells (.getPoisonList h c lda len) 0x4300 p)

/-- `SET_EVENT_INTERRUPT_POLICY`, `SET_ALERT_CONFIGURATION` and `SET_SHUTDOWN_STATE` set the LD's value and nothing else;
`SET_TIMESTAMP` sets device time and is journaled. -/
def Claim.MailboxSettings : Prop :=
  ∀ (h : Half) (c : Nat) (s : State), s.dev.mboxOk h c = true →
    let d := s.dev
    let ok (op : Nat) (d' : Dev) : Dev := d'.emit (.mailbox (d.ldNum h c) op 0 [])
    (∀ p, Runs (.setEventInterruptPolicy h c p) s (ok 0x0103 (d.updLd h c fun x => { x with eventPolicy := p }))) ∧
    (∀ a, Runs (.setAlertConfiguration h c a) s (ok 0x4202 (d.updLd h c fun x => { x with alertConfig := a }))) ∧
    (∀ b, Runs (.setShutdownState h c b) s (ok 0x4204 (d.updLd h c fun x => { x with shutdownDirty := b }))) ∧
    (∀ t, Runs (.setTimestamp h c t) s (ok 0x0301
      (({ d with time := t.toNat }).journalCmd (.ld (d.ldNum h c)) h (pgLDP c) 0 t.toNat true 3)))

/-- The event logs and the Command Effects Log: reading and clearing them, an unknown log, and an opcode outside R78. -/
def Claim.MailboxLogs : Prop :=
  ∀ (h : Half) (c : Nat) (s : State), s.dev.mboxOk h c = true →
    let d := s.dev
    let x := d.ldc h c
    let tells (i : Instr) (op code : Nat) (p : List Nat) : Prop := Runs i s (d.emit (.mailbox (d.ldNum h c) op code p))
    (∃ p, tells (.getEventRecords h c 0) 0x0100 0 p) ∧
    (∀ hs, tells (.clearEventRecords h c 5 true hs) 0x0101 2 []) ∧
    (∀ hs, (x.logInfo.records.take hs.length).map (·.handle) ≠ hs → tells (.clearEventRecords h c 0 false hs) 0x0101 0x0E []) ∧
    (∀ hs, x.logInfo.records ≠ [] → Runs (.clearEventRecords h c 0 true hs) s
      ((d.updLd h c fun y => { y with logInfo := {} }).emit (.mailbox (d.ldNum h c) 0x0101 0 []))) ∧
    (∀ off len, tells (.getLog h c false off len) 0x0401 0x17 []) ∧
    (∀ off len, off + len ≤ 120 → ∃ p, p.length = len ∧ tells (.getLog h c true off len) 0x0401 0 p) ∧
    (∀ op, tells (.mailboxUnsupported h c op) op 3 [])

/-- Label storage: a write inside the 128 KiB puts its bytes where they belong, leaves every other byte, and waits for the seal of
the sailing current in the home half; a later read returns the bytes; a range that does not fit is Invalid Input. -/
def Obligations.LabelStorage : Prop :=
  ∀ (h : Half) (c : Nat) (s : State), s.dev.mboxOk h c = true →
    let d := s.dev
    let byteOf (l : List Host.Cell) (a : Nat) : Nat := ((l.find? fun b => b.1 == a).map (·.2.toNat)).getD 0
    (∀ off bytes, off + bytes.length ≤ 131072 → bytes.length ≤ 16376 →
      ∃ d' : Dev, Runs (.setLsa h c off bytes) s d' ∧ (d'.ldc h c).mboxBusy = true ∧ d'.out = d.out ∧
        (∀ i, i < bytes.length → byteOf (d'.ldc h c).labels (off + i) = (bytes.getD i 0).toNat) ∧
        (∀ a, a < off ∨ off + bytes.length ≤ a → byteOf (d'.ldc h c).labels a = byteOf (d.ldc h c).labels a)) ∧
    (∀ off len, off + len ≤ 131072 → len ≤ 16376 →
      Runs (.getLsa h c off len) s (d.emit (.mailbox (d.ldNum h c) 0x4102 0 ((List.range len).map fun i => byteOf (d.ldc h c).labels (off + i))))) ∧
    (∀ off len, 131072 < off + len → Runs (.getLsa h c off len) s (d.emit (.mailbox (d.ldNum h c) 0x4102 2 [])))

/-- Dynamic Capacity: the list of extents, an offer refused or accepted in none of its parts, and a release of runs that the LD
does not hold. -/
def Claim.DynamicCapacityAnswers : Prop :=
  ∀ (h : Half) (c : Nat) (s : State), s.dev.mboxOk h c = true →
    let d := s.dev
    let x := d.ldc h c
    let live := x.extents.filter fun e => !e.releasing
    (∀ n, Runs (.getDynamicCapacityExtentList h c 0 n) s (d.emit (.mailbox (d.ldNum h c) 0x4801 0
      (live.length :: (live.take n).flatMap fun e => [e.lda, e.dpa, e.len])))) ∧
    (∀ n m, live.length < m → Runs (.getDynamicCapacityExtentList h c m n) s (d.emit (.mailbox (d.ldNum h c) 0x4801 2 []))) ∧
    ((d.extents h c).length ≤ 1024 → Runs (.addDynamicCapacityResponse h c []) s
      ((d.updLd h c fun y => { y with offered := [] }).emit (.mailbox (d.ldNum h c) 0x4802 0 []))) ∧
    (∀ r, x.extents = [] → Runs (.releaseDynamicCapacity h c [r]) s (d.emit (.mailbox (d.ldNum h c) 0x4803 0x0F []))) ∧
    (∀ ld region, d.findLd ld = none → ∀ len, Runs (.dcAdd ld region len) s (d.emit (.fmResponse 0x5604 2 []))) ∧
    (∀ ld, d.findLd ld = some (h, c) → d.fld h (pgLDP c) 0x054 3 0 = 1 → Runs (.dcAdd ld 0 0) s (d.emit (.fmResponse 0x5604 2 [])))

/-- A released extent ends when no access and no transition of its tiles is left: an extent over tiles without a Manifest entry
goes at once. -/
def Claim.ReleasedExtentEnds : Prop :=
  ∀ (h : Half) (c : Nat) (s : State) (e : Extent), (s.dev.ldc h c).extents.find? (·.releasing) = some e →
    s.dev.tilesIn e.dpa e.len = [] →
    Runs (.dcReleaseEffect h c) s ((s.dev.updLd h c fun x => { x with extents := x.extents.erase e }).note)

/-- Poison and media commands: an unaligned LDA is Invalid Input, a scan starts in the background and refuses a second command, and
Sanitize and Secure Erase are refused Busy behind one. -/
def Claim.PoisonAndMediaCommands : Prop :=
  ∀ (h : Half) (c : Nat) (s : State), s.dev.mboxOk h c = true →
    let d := s.dev
    let tells (d : Dev) (op code : Nat) : Dev := d.emit (.mailbox (d.ldNum h c) op code [])
    (∀ lda, lda % 64 ≠ 0 → Runs (.injectPoison h c lda) s (tells d 0x4301 2).settle) ∧
    (∀ lda data, lda % 64 ≠ 0 → Runs (.clearPoison h c lda data) s (tells d 0x4302 2).settle) ∧
    (∀ lda len, (d.ldc h c).bg = none → lda % 64 = 0 → len % 64 = 0 → 0 < len →
      Runs (.scanMedia h c lda len) s ((d.updLd h c fun x => { x with bg := some (.scan lda len) }).emit (.mailbox (d.ldNum h c) 0x4304 1 []))) ∧
    ((d.ldc h c).bg ≠ none → (∀ lda len, Runs (.scanMedia h c lda len) s (tells d 0x4304 6)) ∧
      Runs (.sanitize h c) s (tells d 0x4400 6).settle ∧ Runs (.secureErase h c) s (tells d 0x4401 6).settle)

/-- Background commands end: a Sanitize or Secure Erase of an LD without extents lets its mailbox go, with the labels zero after a
Sanitize only, and a scan of an LD without extents finds nothing. -/
def Claim.BackgroundCommandsEnd : Prop :=
  ∀ (h : Half) (c : Nat) (s : State), s.dev.extents h c = [] →
    let d := s.dev
    let x := d.ldc h c
    let clean (labels : SMap Byte) : Dev := d.updLd h c fun y => { y with bg := none, bgReturn := 0, labels := labels }
    let done (e : Dev) (op : Nat) : Dev := ((e.setMedia h c false).emit (.mailbox (e.ldNum h c) op 0 [])).settle
    (x.bg = some .sanitize → Runs (.sanitizeWalkDone h c) s (done (clean []) 0x4400)) ∧
    (x.bg = some .secureErase →
      Runs (.sanitizeWalkDone h c) s (done (d.updLd h c fun y => { y with bg := none, bgReturn := 0 }) 0x4401)) ∧
    (∀ lda len, x.bg = some (.scan lda len) → ∃ e : Dev, ∃ n, e.out = d.out ∧
      Runs (.scanMediaDone h c) s (e.emit (.mailbox n 0x4304 0 [])).settle)

/-- `CDAT_REQUEST` answers an enabled LD with four pairs of latency and bandwidth an extent and changes nothing else. -/
def Claim.CdatAnswers : Prop :=
  ∀ (h : Half) (c : Nat) (s : State), s.dev.ldOn h c = true →
    ∃ p, p.length = 7 * (s.dev.extents h c).length ∧ Runs (.cdatRequest h c) s (s.dev.emit (.cdat (s.dev.ldNum h c) p))

/-- An offer of capacity is made where the FM names blocks of a region that the LD has, the list has room, and room is found in the
home half's pool (the device's choice where it is possible, else the first free run) and in the region; accepted runs become
extents, and released runs become extents being released. -/
def Claim.DynamicCapacityChanges : Prop :=
  ∀ (h : Half) (c : Nat) (s : State),
    let d := s.dev
    let x := d.ldc h c
    let blk := (d.dcCfg h c).2.1
    let home : Half := if d.fld h (pgLDP c) 0x060 0 0 = 1 then .east else .west
    let lo := home.num * 2 ^ 25
    let hi := lo + (d.half home).tier.backed / 1024
    let pick := lo + Config.freeNat d.freeCtr % max 1 ((hi - lo) / blk) * blk
    (∀ ld region len a l, d.findLd ld = some (h, c) → region < (d.dcCfg h c).1 → 0 < len → len % blk = 0 →
      (d.extents h c).length + x.offered.length < 1024 → (d.single && home == .east) = false →
      (if pick + len ≤ hi ∧ runFree d.dpaTaken pick len then some pick else firstFree d.dpaTaken lo hi blk len) = some a →
      firstFree ((x.extents ++ x.offered).map fun e => (e.lda, e.len)) (d.regionBase h c region)
        (d.regionBase h c region + (d.dcCfg h c).2.2) blk len = some l →
      Runs (.dcAdd ld region len) s
        (((({ d with freeCtr := d.freeCtr + 1 }).updLd h c fun y => { y with
          offered := y.offered ++ [({ region := region, lda := l, dpa := a, len := len } : Extent)] }).logEvent h c .dynamicCapacity
            (a * 2 ^ 20) 0).emit (.fmResponse 0x5604 0 []))) ∧
    (∀ runs, d.mboxOk h c = true → runsOk blk runs = true → (runs.filterMap (partOf x.offered)).length = runs.length →
      (d.extents h c).length + runs.length ≤ 1024 → Runs (.addDynamicCapacityResponse h c runs) s
        ((d.updLd h c fun y => { y with
          extents := y.extents ++ runs.filterMap (partOf x.offered)
          offered := [] }).emit (.mailbox (d.ldNum h c) 0x4802 0 []))) ∧
    (∀ runs, d.mboxOk h c = true → runsOk blk runs = true → (∀ p ∈ runs, (partOf x.extents p).isSome) →
      let cut := runs.foldl (fun l p => l.flatMap (cutExtent p)) x.extents
      (d.extents h c).length - x.extents.length + cut.length ≤ 1024 → Runs (.releaseDynamicCapacity h c runs) s
        ((d.updLd h c fun y => { y with extents := cut }).emit (.mailbox (d.ldNum h c) 0x4803 0 [])))

/-- A poison command on an aligned, mapped line of an LD that takes writes becomes a strict write that completes at its seal:
Inject keeps the bytes and sets the poison bit, Clear writes the bytes supplied with the bit clear. -/
def Claim.PoisonWritesEnter : Prop :=
  ∀ (h : Half) (c lda n : Nat) (s : State), s.dev.mboxOk h c = true → lda % 64 = 0 → (s.dev.ldc h c).mediaDisabled = false →
    s.dev.accessRefused h c = false → s.dev.mediaUp h = true → s.dev.ldaLine h c lda = some n → (s.dev.ldc h c).writeRefused = false →
    let d := s.dev
    let enters (kind : ReqKind) : Dev := ((d.updLd h c fun x => { x with
      mboxBusy := true
      inFlight := x.inFlight + 1 }).portWrite h { src := .mailbox h c, ld := d.ldNum h c, line := n, kind := kind }).settle
    Runs (.injectPoison h c lda) s (enters (.write 0 0 true)) ∧
    (∀ data, Runs (.clearPoison h c lda data) s (enters (.write data fullMask false)))

/-- Sanitize and Secure Erase start: the LD's media are disabled, its key slots are erased and fresh ones installed, and the command
goes on in the background. -/
def Claim.ErasesStart : Prop :=
  ∀ (h : Half) (c : Nat) (s : State), s.dev.mboxOk h c = true → (s.dev.ldc h c).bg = none →
    (s.dev.split && s.dev.crossLd h c) = false → (s.dev.slotsOf (s.dev.ldNum h c)).length ≤ s.dev.freeSlots →
    let d := s.dev
    let erased (bg : BgOp) : Dev := (d.updLd h c fun x => { x with bg := some bg }).eraseLd h c
    let starts (op : Nat) (bg : BgOp) : Dev := ((erased bg).emit (.mailbox (d.ldNum h c) op 1 [])).settle
    ((erased .sanitize).solo && (erased .sanitize).twinPaired h) = false →
    ((erased .secureErase).solo && (erased .secureErase).twinPaired h) = false →
    Runs (.sanitize h c) s (starts 0x4400 .sanitize) ∧ Runs (.secureErase h c) s (starts 0x4401 .secureErase)

/-! ### Host accesses (R26 to R30, R75, R128, R137) -/

/-- A host access of a bound, serving port is in flight for its LD; an unmapped read returns zero bytes marked poison, an unmapped
write and one under WRITE_REFUSED complete with nothing stored and no mark, and a mapped access goes to its line. -/
def Claim.HostAccess : Prop :=
  ∀ (h : Half) (port sub ldid tag hpa c : Nat) (s : State), s.dev.portServes h port sub = true → s.dev.ctxAt h port sub ldid = some c →
    let d := s.dev.updLd h c fun x => { x with inFlight := x.inFlight + 1 }
    let src := ReqSrc.host h port c tag
    let ld := s.dev.ldNum h c
    let at' := hpa / 64 * 64
    (∀ lda, d.portTake h c at' false = .unmapped lda → Runs (.hostRead h port sub ldid tag hpa) s
      ((d.unmappedNote h c lda).deliver h { src, ld, sailing := 0, marks := false, data := some 0, poison := true }).settle) ∧
    (∀ lda data, d.portTake h c at' true = .unmapped lda → Runs (.hostWrite h port sub ldid tag hpa data) s
      ((d.unmappedNote h c lda).deliver h { src, ld, sailing := 0, marks := false, data := none }).settle) ∧
    (∀ data mask, d.portTake h c at' true = .refused → Runs (.hostPartialWrite h port sub ldid tag hpa data mask) s
      (d.deliver h { src, ld, sailing := 0, data := none, marks := false }).settle) ∧
    (∀ n, d.portTake h c at' false = .line n →
      Runs (.hostRead h port sub ldid tag hpa) s (d.route h { src, ld, line := n, kind := .read }).settle) ∧
    (∀ n data, d.portTake h c at' true = .line n →
      Runs (.hostWrite h port sub ldid tag hpa data) s (d.portWrite h { src, ld, line := n, kind := .write data fullMask false }).settle) ∧
    (∀ n data mask, d.portTake h c at' true = .line n →
      Runs (.hostPartialWrite h port sub ldid tag hpa data mask) s (d.portWrite h { src, ld, line := n, kind := .write data mask false }).settle)

/-- A read of a BLANK tile whose entry is in the Manifest cache returns zero bytes without poison and raises no fence mark; one of
a LOST tile returns poison. -/
def Claim.ReadsOfBlankAndLost : Prop :=
  ∀ (h : Half) (r : Req) (d : Dev), r.kind = .read → d.behind h r = false → (d.half h).tier.copying = none →
    ((d.tile h (lineTile r.line)).state = .blank → d.readGo h r = d.respond h r 0 0 false false) ∧
    ((d.tile h (lineTile r.line)).state = .lost →
      d.readGo h r = d.respond h r (d.lastSailing h (d.tile h (lineTile r.line))) 0 true true) ∧
    ((d.tile h (lineTile r.line)).state = .rising → d.readGo h r = d.hold h r)

/-- A Manifest fetch that returns clean fills the cache and lets the waiting request of its tile go on. -/
def Claim.ManifestFetchReturns : Prop :=
  ∀ (h : Half) (r : Req) (s : State) (loc cw sy : Nat), (s.dev.half h).tier.fetching = [r] →
    Runs (.manifestEntryFetchDone h 0 loc cw sy) s
      ((((s.dev.upd h fun x => { x with tier := { x.tier with fetching := [] } }).mcFill h (lineTile r.line)).go h r true).settle)

/-- A DRAM read completes for the oldest waiting request whose subchannel serves; a Heal write-back is written and counted where the
line still holds what it held, and dropped where it has been rewritten. -/
def Claim.DramReadsAndHeals : Prop :=
  ∀ (h : Half) (s : State),
    (∀ (r : Req) (rs : List Req) (err : SLine), (s.dev.half h).tier.dramReads = r :: rs →
      s.dev.subHeld h (frameSub (s.dev.tile h (lineTile r.line)).frame.toNat) = false →
      Runs (.dramReadDone h err) s
        (((s.dev.upd h fun x => { x with tier := { x.tier with dramReads := rs } }).burstDone h r err).settle)) ∧
    (∀ (w : Heal) (ws : List Heal), (s.dev.half h).ecc.heals = w :: ws → w.landing = false →
      let d := s.dev.upd h fun x => { x with ecc := { x.ecc with heals := ws } }
      (s.dev.frameLine h (w.place / 1024) (w.place % 1024) ≠ w.was → Runs (.healWriteback h) s d) ∧
      (s.dev.frameLine h (w.place / 1024) (w.place % 1024) = w.was → Runs (.healWriteback h) s
        ((d.putFrameLine h (w.place / 1024) (w.place % 1024) w.now).wrap64 h (pgMEMC (frameSub (w.place / 1024) / 2)) 0x080)))

/-- Cross-half requests: the home half takes the oldest one and serves it as its own, and the port's half takes the answer through
the visibility floor or completes the write. -/
def Claim.CrossHalfRequests : Prop :=
  ∀ (h : Half) (s : State) (d : Dev),
    (∀ line ld tag, (s.dev.fordTake h 1 FordMsg.isMemRd) = some (.memRd line ld tag, d) →
      Runs (.memRd h) s (d.arrive h { src := .ford tag, ld, line, kind := .read }).settle) ∧
    (∀ line ld tag data, (s.dev.fordTake h 1 FordMsg.isMemWr) = some (.memWr line ld tag data, d) →
      Runs (.memWr h) s (d.arrive h { src := .ford tag, ld, line, kind := .write data fullMask false }).settle) ∧
    (∀ line ld tag data mask,
      (s.dev.fordTake h 1 FordMsg.isMemWrp) = some (.memWrp line ld tag data mask, d) →
      Runs (.memWrp h) s (d.arrive h { src := .ford tag, ld, line, kind := .write data mask false }).settle) ∧
    (∀ tag stamp poison fill data c e,
      (s.dev.fordTake h 2 FordMsg.isMemRdData) = some (.memRdData tag stamp poison fill data, d) →
      d.crossTake h tag = some (c, e) →
      Runs (.memRdData h) s (e.floor h { src := c.src, ld := c.ld, data := some data, poison, marks := !fill
                                         sailing := if fill then 0 else resolve 18 (e.stampTop h) stamp })) ∧
    (∀ tag c e, (s.dev.fordTake h 2 FordMsg.isMemWrAck) = some (.memWrAck [tag], d) →
      d.crossTake h tag = some (c, e) → Runs (.memWrAck h) s (e.crossAccepted h c))

/-! ### The Ford's link (R19 to R25, R290, R332 to R334) -/

/-- Flits: a bad one makes the receiver discard, an idle one frees what it acknowledges, and a replay request ends the discarding
and is counted by the sender, of which the sixteenth in a row retrains the module. -/
def Claim.FordFlits : Prop :=
  ∀ (h : Half) (s : State), s.dev.fordUp h = true →
    Runs (.fordFlitBad h) s (s.dev.upd h fun x => { x with ford := { x.ford with discarding := true } }) ∧
    ((s.dev.half h).ford.discarding = false → Runs (.fordIdleFlit h) s (s.dev.fordAck h)) ∧
    (∀ m, (s.dev.half h.other).ford.discarding = true →
      let d := ((s.dev.fordAck h).sat h pgFORD 0x060).upd h.other fun x => { x with ford := { x.ford with discarding := false } }
      let n := (d.half h).ford.resent + 1
      (n < 16 → Runs (.fordReplayRequest h m) s (d.upd h fun x => { x with ford := { x.ford with resent := n } })) ∧
      (16 ≤ n → (d.half h).ford.upOf m = true → Runs (.fordReplayRequest h m) s (d.fordRetrain [m])))

/-- Lanes and modules: a repaired lane is counted with `FORD_REPAIR`, a fifth retrains its module; a joining module with at most 4
repaired lanes at each end comes up. -/
def Claim.FordLanesAndModules : Prop :=
  ∀ (h : Half) (m : Nat) (s : State), s.dev.fordUp h = true → (s.dev.half h).ford.upOf m = true →
    ((s.dev.half h).ford.repairOf m < 4 → Runs (.fordLaneRepair h m) s
      ((s.dev.upd h fun x => { x with ford := x.ford.setRepair m (x.ford.repairOf m + 1) }).raise h pgFORD .fordRepair)) ∧
    (4 ≤ (s.dev.half h).ford.repairOf m → Runs (.fordLaneRepair h m) s (s.dev.fordRetrain [m]))

/-- The Ford's training: a retrained module carries traffic again and the master opens the next sailing at once; a joining module
joins; a loss goes Split; the once-a-second retry and the power-up training end. -/
def Claim.FordTraining : Prop :=
  ∀ (s : State),
    (s.dev.west.ford.state = .retraining → ∀ lanes,
      let d := s.dev.fordTrain lanes
      ((d.west.ford.up0 || d.west.ford.up1) = false → Runs (.fordRetrainDone lanes) s d.fordLose.settle) ∧
      ((d.west.ford.up0 || d.west.ford.up1) = true →
        let e := d.fordBoth fun f => fordFlush f.upState
        (e.modulesOn.all fun m => e.west.ford.upOf m) = true → Runs (.fordRetrainDone lanes) s
          (if e.sails e.beacon then e.openNext e.beacon else e).settle)) ∧
    (∀ m lw le, s.dev.west.ford.joining.contains m = true → s.dev.west.ford.state = .upHalf →
      let d := ((s.dev.fordBoth fun f => { f with joining := f.joining.filter (· != m) }).moduleTrained m lw le).fordBoth fun f => f.upState
      Runs (.fordModuleTrainDone m lw le) s (if d.west.ford.upOf m then d else d.fordRaise .fordDegraded)) ∧
    (s.dev.single = false → s.dev.west.ford.state ≠ .lost → Runs .fordLost s s.dev.fordLose.settle) ∧
    (∀ lanes d, s.dev.single = false → s.dev.west.ford.state = .training → s.dev.supv.resetN = true → s.dev.fordTry lanes = some d →
      Runs (.fordUp lanes) s d) ∧
    (∀ lanes d, s.dev.single = false → s.dev.west.ford.state = .lost →
      (∀ h, (s.dev.half h).pwr.gated.getLsbD 15 = false ∧ ∀ i, 15 ≤ i → i ≤ 18 → (s.dev.half h).pwr.failed.getLsbD i = false) →
      s.dev.fordTry lanes = some d → Runs (.fordTrainRetry lanes) s d.rejoinGo.settle)

/-- A write of RETRAIN to `FORD.CTRL` retrains every enabled module of a Ford that is up; on the FSC-9418-C it is refused. -/
def Claim.FordRetrainCommand : Prop :=
  ∀ (org : Origin) (h : Half) (s : State), s.dev.takes org h pgFORD 0x040 = true →
    let v := s.dev.fld h pgFORD 0x040 2 1 * 2 + 1
    let d := s.dev.entry org h pgFORD 0x040 v
    (d.single = false → d.fordUp .west = true → Runs (.fordRetrainCmd org h) s (d.fordRetrain d.modulesOn)) ∧
    (d.single = true → Runs (.fordRetrainCmd org h) s (s.dev.refusal org h pgFORD 0x040 v))

/-! ### Sailings, fences and GPF (R36 to R61, R408) -/

/-- The beacon: the master's timer opens the next sailing at its length, the follower opens the sailing named and echoes it, the
echo opens it for both halves, a durable reservation takes effect, and `SEAL_READY` is noted in the ledger and may seal. -/
def Claim.SailingsOpenAndSeal : Prop :=
  ∀ (h : Half) (s : State) (d : Dev) (n : Nat),
    ((s.dev.isMaster h && s.dev.sails h) = true →
      let t := (s.dev.half h).sail.openedAt + (s.dev.half h).sail.length
      Runs (.sailingLengthElapsed h) s
        (({ s.dev with uptime := s.dev.uptime + (t - s.dev.time), time := max s.dev.time t }).openNext h).settle) ∧
    ((s.dev.fordTake h 0 FordMsg.isBeaconOpen) = some (.beaconOpen n, d) →
      Runs (.beaconOpen h) s (((d.boundary h n).openBoth h n).fordSend h (.beaconEcho n)).settle) ∧
    ((s.dev.fordTake h 0 FordMsg.isBeaconEcho) = some (.beaconEcho n, d) →
      (d.echoLate h n = false → Runs (.beaconEcho h) s (d.openBoth h n).settle) ∧
      (d.echoLate h n = true →
        Runs (.beaconEcho h) s (((d.openBoth h n).sat h pgSAIL 0x07C).raise h pgSAIL .skewLate).settle)) ∧
    (∀ r, (s.dev.half h).sail.reservePending = some r → Runs (.reservationRecordDone h) s
      (s.dev.upd h fun x => { x with sail := { x.sail with reservation := r, reservePending := none } })) ∧
    ((s.dev.fordTake h 0 FordMsg.isSealReady) = some (.sealReady n, d) →
      Runs (.sealReady h) s ((d.upd h fun x => { x with sail := { x.sail with
        ledger := x.sail.ledger.map fun e => if e.s = n then { e with otherReady := true } else e } }).seal).settle)

/-- A fence is rung with the LD's mark as its target; one that stays unsealed for FENCE_TIMEOUT completes FAILED with reason 3. -/
def Claim.Fences : Prop :=
  ∀ (h : Half) (c : Nat) (s : State),
    (∀ org token, s.dev.takes org h (pgLDP c) 0x100 false = true →
      Runs (.fence org h c token) s ((s.dev.wake h (pageIsland (pgLDP c))).ringFence h c token)) ∧
    (∀ f fs, (s.dev.ldc h c).fences = f :: fs →
      let d := (s.dev.updLd h c fun x => { x with fences := fs }).fenceDone h c f.target 4 3 f.token
      Runs (.fenceTimeout h c) s (Dev.fencesLd h c (d.ldc h c).fences d))

/-- GPF: phase 1 is acknowledged at once, phase 2 waits for the master's current sailing, and a late phase 2 completes with
`GPF_LATE`. -/
def Claim.GpfPhases : Prop :=
  ∀ (s : State), Runs .gpfPhase1 s (s.dev.emit (.gpf 1)) ∧
    ((s.dev.half s.dev.beacon).sail.sealed < (s.dev.half s.dev.beacon).sail.current →
      Runs .gpfPhase2 s { s.dev with gpf := some (s.dev.half s.dev.beacon).sail.current }) ∧
    ((s.dev.half s.dev.beacon).sail.current ≤ (s.dev.half s.dev.beacon).sail.sealed →
      Runs .gpfPhase2 s ({ s.dev with gpf := none }.emit (.gpf 2))) ∧
    (s.dev.gpf ≠ none → Runs .gpfLate s ((({ s.dev with gpf := none }).emit (.gpf 2)).raise s.dev.beacon pgSAIL .gpfLate))

/-! ### Ports, links and resets (R69, R73, R77, R85) -/

/-- Resets reach what R85 gives them: a port, a sub-link, one LD, or its CXL.io state alone; `PERST_N` high starts training. -/
def Claim.PortResets : Prop :=
  ∀ (h : Half) (port sub c : Nat) (s : State), port < 4 → s.dev.inLf h = false →
    let d := s.dev
    let low := d.updPort h port fun q => { q with perstHigh := false }
    (low.inLf h = false → low.islandDark h (Block.hpt.island port) = false → Runs (.perstNAssert h port) s (low.portReset h port).settle) ∧
    Runs (.perstNDeassert h port) s (d.updPort h port fun q => { q with perstHigh := true, training := true }) ∧
    ((((d.half h).ports.getD port {}).links.getD sub {}).up = true →
      Runs (.hotReset h port sub) s (d.subReset h port sub).settle ∧
      Runs (.linkDown h port sub) s ((d.subReset h port sub).raise h (pgHPT port) .linkDown sub).settle) ∧
    Runs (.cxlReset h c) s (d.resetLds h fun x => x == c).settle ∧
    (d.ldOn h c = true → Runs (.flr h c) s ((d.resetLd h c false).spdmDrop fun r => r == 8 + d.ldNum h c))

/-- A sub-link trains to at most the speed its port allows and the width its division gives; CXL.mem is enabled from 16 GT/s in
256-byte flits, and a link below that or narrower than its division is degraded. -/
def Claim.LinksTrain : Prop :=
  ∀ (h : Half) (port sub speed width : Nat) (flit256 : Bool) (s : State), port < 4 → sub < s.dev.subLinks h port →
    s.dev.fld h (pgHPT port) 0x040 6 6 = 1 → ((s.dev.half h).ports.getD port {}).perstHigh = true →
    s.dev.islandDark h (Block.hpt.island port) = false → s.dev.inLf h = false →
    let sp := max (speed % 4) (s.dev.fld h (pgHPT port) 0x040 5 4)
    let w := min (max 1 width) (s.dev.subWidth h port)
    let d := s.dev.updPort h port fun q => { q with
      links := q.links.set sub { cxlMem := decide (sp < 3) && flit256, up := true, speed := sp, width := w }, training := false }
    (sp < 3 → flit256 = true → w = s.dev.subWidth h port → d.subWidth h port = w →
      Runs (.linkUp h port sub speed width flit256) s (d.raise h (pgHPT port) .linkUp sub)) ∧
    ((3 ≤ sp ∨ flit256 = false) → Runs (.linkUp h port sub speed width flit256) s (d.raise h (pgHPT port) .linkDegraded sub))

/-- A decoder commit that meets the rules commits the decoder, one that breaks a rule shows the error indication, and neither
changes anything else; a committed decoder stands. -/
def Claim.DecoderCommits : Prop :=
  ∀ (h : Half) (c i base size skip ways gran : Nat) (s : State), s.dev.ldOn h c = true → i < 8 →
    let n : Hdm := { base, size, skip, ways, gran }
    let old := (s.dev.ldc h c).hdm
    (old.getD i {}).committed = false →
    (hdmOk old i n = true → Runs (.hdmDecoderCommit h c i base size skip ways gran true) s
      (s.dev.updLd h c fun x => { x with hdm := x.hdm.set i { n with committed := true } })) ∧
    (hdmOk old i n = false → Runs (.hdmDecoderCommit h c i base size skip ways gran true) s
      (s.dev.updLd h c fun x => { x with hdm := x.hdm.set i { n with error := true } }))

/-! ### Register accesses (R345 to R353, R77, R321) -/

/-- A register access of an origin with none under way or waiting is made at once: a read answers, a write is judged, an `EV_IRQ`
write is a write of its word. -/
def Claim.RegisterAccessesAreMade : Prop :=
  ∀ (org : Origin) (h : Half) (page off : Nat) (s : State), (∀ i, org ≠ .hw i) → page < 4096 → off < 4096 → off % 4 = 0 →
    s.dev.west.ctl.waiting = [] → s.dev.east.ctl.waiting = [] → (s.dev.half (org.via h)).ctl.underWay org = false →
    Runs (.registerRead org h page off) s (s.dev.regRead s.otp org h page off).settleT ∧
    (∀ v full, ((s.dev.regWrite s.otp org h page off v full).settleT).otpc = none →
      Runs (.registerWrite org h page off v full none) s (s.dev.regWrite s.otp org h page off v full).settleT) ∧
    (∀ c vec mask, c < 64 → Runs (.evIrqWrite org h c vec mask) s
      (s.dev.regWrite s.otp org h (pgLDP c) 0x208 (BitVec.ofNat 32 (vec.toNat * 65536 + mask.toNat)) true).settleT)

/-- `RTC_ALARM` written whole outside a transaction, by an origin without a held low half: both words are committed at once, in both
copies while the device is whole. -/
def Claim.RtcAlarmApplies : Prop :=
  ∀ (org : Origin) (h : Half) (v : DWord) (s : State) (i : Nat) (r : Reg) (k : Nat), (∀ i, org ≠ .hw i) → org.via h = h →
    s.dev.west.ctl.waiting = [] → s.dev.east.ctl.waiting = [] → (s.dev.half h).ctl.underWay org = false →
    s.dev.west.ctl.wrLatch = [] → s.dev.east.ctl.wrLatch = [] → s.dev.openTxn org = none →
    s.dev.gate org h h pgPWRS 0x058 true = .pass → s.dev.gate org h h pgPWRS 0x05C true = .pass →
    regAt pgPWRS 0x05C = some (.pwrs, i, r, k) →
    Runs (.rtcAlarmWrite org h v) s (s.dev.alarmWrite org h (s.dev.newWords h pgPWRS .pwrs r k v.toNat)).settleT

/-- Register messages of the Ford: the half that holds the page answers a read and applies a write with its own rules, and the
answer ends the access where it entered. -/
def Claim.RegisterMessages : Prop :=
  ∀ (h : Half) (s : State) (d : Dev) (org : Origin) (a : Nat) (v : Word),
    (s.dev.fordTake h 3 FordMsg.isRegRd = some (.regRd org a, d) →
      Runs (.regRd h) s (d.localRead s.otp org h h (addrPage a) (a % 4096) true).settleT) ∧
    (s.dev.fordTake h 3 FordMsg.isRegWr = some (.regWr org a v, d) →
      let e := ((d.localWrite s.otp org h h (addrPage a) (a % 4096) v true).fordSend h (.regResp org a 0 false)).settleT
      e.otpc = none → Runs (.regWr h none) s e) ∧
    (∀ ok, s.dev.fordTake h 3 FordMsg.isRegResp = some (.regResp org a v ok, d) →
      let e := d.upd h fun x => { x with ctl := { x.ctl with remote := x.ctl.remote.erase org } }
      e.west.ctl.waiting = [] → e.east.ctl.waiting = [] → (if ok then e.emit (.regValue org a v) else e).settleT.otpc = none →
      Runs (.regResp h none) s (if ok then e.emit (.regValue org a v) else e).settleT)

/-- A read of a dark page returns all ones, and a write is discarded with an entry whose result is REFUSED; each raises
`DARK_ACCESS` with HALF × 4,096 + page. -/
def Claim.DarkPages : Prop :=
  ∀ (d : Dev) (otp : Pair OtpRow) (org : Origin) (h : Half) (page off : Nat) (v : Word), d.pageDark h h page = true →
    d.mgmtLost h = false → d.reaches org h page off = true →
    let e := d.raise h pgJRNL .darkAccess (h.num * 4096 + page)
    d.localRead otp org h h page off false = e.emit (.regValue org (regAddr h page off) 0xFFFFFFFF) ∧
    ((blockOf page).isSome = true → d.localWrite otp org h h page off v true = e.jAppend h {
      time := 0, new := v, old := 0, jseq := 0, result := rREFUSED, cls := (d.orgCode org).1, org := (d.orgCode org).2,
      word := off / 4, page := page, half := h })

/-- A write to the device's own pages by anyone but its firmware is refused while the page's WR_LOCK is set, except of `PAGE_CTRL`
and `EV_CLR`: the one change is the REFUSED entry. -/
def Claim.LockedPagesRefuse : Prop :=
  ∀ (d : Dev) (otp : Pair OtpRow) (org : Origin) (h : Half) (page off : Nat) (v : Word) (full : Bool), d.pageDark h h page = false →
    d.mgmtLost h = false → d.reaches org h page off = true → (blockOf page).isSome = true → org.outside = true →
    d.fld h page 0x00C 0 0 = 1 → off ≠ 0x00C → off / 8 ≠ 7 → d.localWrite otp org h h page off v full = d.refuse org h page off v

/-- A write to `MGMT.CMD`, standing for every command register, is refused inside the origin's OPEN transaction: its entry is
REFUSED and no peer restarts. -/
def Claim.CommandsRefusedInOpenTransaction : Prop :=
  ∀ (org : Origin) (h : Half) (i : Nat) (s : State), org.via h = h → s.dev.accBusy h org = false →
    s.dev.openTxn org = some i →
    (s.dev.gate org h h pgMGMT 0x058 true = .pass → Runs (.restartPeer org h) s (s.dev.journal org h pgMGMT 0x058 rREFUSED 0 1)) ∧
    (s.dev.gate org h h pgFORD 0x040 true = .pass → ∀ v, v = s.dev.fld h pgFORD 0x040 2 1 * 2 + 1 →
      Runs (.fordRetrainCmd org h) s (s.dev.journal org h pgFORD 0x040 rREFUSED 0 (BitVec.ofNat 32 v)))

/-! ### Management complexes and islands (R17, R24, R64, R328, R335 to R343) -/

/-- Heartbeats: the running complex sends the next beat, and its peer notes the time of a beat that has advanced. -/
def Claim.ManagementHeartbeats : Prop :=
  ∀ (h : Half) (s : State),
    ((s.dev.half h).boot.running = true → let n := ((s.dev.half h).mgmt.beat + 1) % 2 ^ 32
      Runs (.mgmtHeartbeatTimer h) s ((s.dev.upd h fun x => { x with mgmt := { x.mgmt with beat := n } }).fordSend h (.heartbeat n))) ∧
    (∀ n d, s.dev.fordTake h 3 FordMsg.isHeartbeat = some (.heartbeat n, d) →
      Runs (.mgmtHeartbeat h) s (d.upd h fun x => { x with mgmt := { x.mgmt with
        peerBeat := n, peerBeatAt := if n = x.mgmt.peerBeat then x.mgmt.peerBeatAt else d.time } }))

/-- A lost complex: its loss is counted within the hour, `RESTART_MAX` of them hold it in reset with `MGMT_HELD`; the peer takes
over with its two events, gives the pages back when it is restored, and `RESTART_PEER` releases a held one. -/
def Claim.ManagementLossAndReturn : Prop :=
  ∀ (h : Half) (s : State),
    (h ∈ s.dev.halves → (s.dev.half h).boot.running = true →
      let d := s.dev.mgmtLose h
      let l := d.uptime :: (d.half h).mgmt.losses.filter fun t => decide (d.uptime < t + 3600000000000)
      let e := d.upd h fun x => { x with mgmt := { x.mgmt with losses := l } }
      (l.length < e.fld h pgMGMT 0x048 3 0 → Runs (.mgmtWatchdog h) s e ∧ Runs (.lockstepMismatch h) s e) ∧
      (e.fld h pgMGMT 0x048 3 0 ≤ l.length → Runs (.mgmtWatchdog h) s
        ((e.upd h fun x => { x with mgmt := { x.mgmt with held := true } }).raise h pgMGMT .mgmtHeld))) ∧
    (s.dev.fordUp h = true → (s.dev.half h).boot.running = true → s.dev.mgmtLost h.other = true → (s.dev.half h).mgmt.takeover = false →
      Runs (.mgmtPeerLost h) s (((s.dev.upd h fun x => { x with mgmt := { x.mgmt with takeover := true } }).raise h pgMGMT
        .mgmtPeerLost).raise h pgMGMT .mgmtTakeover)) ∧
    (let x := s.dev.half h
     (x.mgmt.lost && !x.mgmt.held && x.boot.image.isSome && !(x.pwr.failed.getLsbD 19) && !(x.pwr.inReset.getLsbD 19)) = true →
      Runs (.mgmtRestored h) s (((s.dev.upd h fun x => { x with
        mgmt := { x.mgmt with lost := false, peerBeatAt := s.dev.time }, boot := { x.boot with running := true } }).upd h.other
          fun x => { x with mgmt := { x.mgmt with takeover := false } }).raise h pgMGMT .mgmtRestored)) ∧
    (∀ org, s.dev.takes org h pgMGMT 0x058 = true → let d := s.dev.entry org h pgMGMT 0x058 1
      ((d.half h.other).mgmt.held = true → Runs (.restartPeer org h) s
        (d.upd h.other fun x => { x with mgmt := { x.mgmt with held := false, losses := [] } })) ∧
      ((d.half h.other).mgmt.held = false → Runs (.restartPeer org h) s (s.dev.refusal org h pgMGMT 0x058 1)))

/-- Islands: a fault marks the island failed with `ISLAND_FAULT` and does what its block's failure does, a wake opens a gated one,
the end of a reset lets its held requests go on, and a silent always-on island starts Last Ferry with cause 3. -/
def Claim.IslandEvents : Prop :=
  ∀ (h : Half) (i : Nat) (s : State), h ∈ s.dev.halves → i < 22 →
    ((s.dev.half h).pwr.failed.getLsbD i = false → Runs (.islandFault h i) s
      (((s.dev.upd h fun x => { x with
          pwr := { x.pwr with failed := x.pwr.failed ||| BitVec.twoPow 22 i }
          mgmt := { x.mgmt with faultTime := s.dev.time } }).raise h pgMGMT .islandFault i).islandFail h i).settleT) ∧
    Runs (.islandWakeDone h i) s (s.dev.wake h i).settleT ∧
    ((s.dev.half h).boot.running = true → (∀ k, 16 ≤ k → k ≤ 18 → (s.dev.half h).pwr.failed.getLsbD k = false) →
      Runs (.islandResetDone h i) s
        (s.dev.upd h fun x => { x with pwr := { x.pwr with inReset := x.pwr.inReset &&& ~~~(BitVec.twoPow 22 i) } }).settleT) ∧
    ((s.dev.half h).boot.running = true → Runs (.alwaysOnSilent h) s
      (((s.dev.upd h fun x => { x with pwr := { x.pwr with failed := x.pwr.failed ||| BitVec.twoPow 22 21 } }).startLf 3
        (s.dev.together h)).settleT))

/-- `ACCEPT_LOCAL` opens a refusing half from its own image: `SOLO_ENTER` is raised and the half refuses no longer; where the half
refuses nothing the command is refused with `CHECK_FAILED`. -/
def Claim.AcceptLocal : Prop :=
  ∀ (org : Origin) (h : Half) (s : State), s.dev.takes org h pgSAIL 0x080 = true →
    let d := s.dev.entry org h pgSAIL 0x080 1
    (d.acceptMay h = true → (d.half h).pwr.unsaved = [] → Runs (.acceptLocal org h) s
      ((((d.upd h fun x => { x with
          pwr := { x.pwr with refusing := false, unsaved := [] }
          sail := { x.sail with soloFrom := if x.sail.soloFrom = 0 then x.sail.sealed + 1 else x.sail.soloFrom } }).raise h pgSAIL
        .soloEnter).note).settleT)) ∧
    (d.acceptMay h = false →
      Runs (.acceptLocal org h) s ((s.dev.refusal org h pgSAIL 0x080 1).checkFailed h pgSAIL 0x080).settleT)

/-! ### Promotion, write-back and eviction (R97 to R110, R119, R330) -/

/-- A promotion's read keeps a tile whose CMAC passes under a key that serves, tries once more after the first failure, and loses a
tile that neither NAND nor the twin gives; its lines written to the frame make it DRAM_CLEAN. -/
def Claim.PromotionsEnd : Prop :=
  ∀ (h : Half) (p : Promo) (s : State),
    ((s.dev.half h).tier.promos.find? (fun p => p.frame.isSome && p.img.isNone && !p.twin) = some p →
      let a := (s.dev.tile h p.tile).nand.toNat
      let d := s.dev.wrap64 h (pgFLSH (nandIsle a)) 0x0E0
      (∀ i, s.dev.nandImg h a = some i → d.imgOk h i = true →
        Runs (.promotionReadDone h true) s (d.updPromo h p.tile fun q => { q with img := some i }).settleT) ∧
      (p.retried = false →
        Runs (.promotionReadDone h false) s
          ((d.sat h (pgFLSH (nandIsle a)) 0x100).updPromo h p.tile fun q => { q with retried := true }).settleT) ∧
      (let e := d.sat h (pgFLSH (nandIsle a)) 0x100
       p.retried = true → e.recallCan h (e.tile h p.tile).lastSailing = false →
        Runs (.promotionReadDone h false) s (e.promoLose h p).settleT)) ∧
    (∀ i f, (s.dev.half h).tier.promos.find? (fun p => p.img.isSome) = some p → p.img = some i → p.frame = some f →
      Runs (.promotionFrameWritten h) s (((s.dev.writeTile h f p.tile i false).promoEnd h p .dramClean).settleT))

/-- Write-back: the first stream-marked tile that a sink may take goes first, and its program's end moves the tile or fails the
page. -/
def Claim.SinksStartAndEnd : Prop :=
  ∀ (h : Half) (t : Nat) (s : State),
    ((s.dev.half h).tier.streamList.find? (fun t => s.dev.sinkable h t) = some t → ∀ d, s.dev.sinkStart h t = some d →
      Runs (.sinkStart h) s d.settleT) ∧
    (∀ k ok plane, plane < 4 → (s.dev.half h).tier.sinks.find? (fun k => k.tile == t) = some k →
      Runs (.sinkProgramDone h t ok plane) s (((s.dev.wrap64 h (pgFLSH (nandIsle k.loc)) 0x0E8).sinkEnd h k ok plane).settleT))

/-- Evictions run while free frames are below FREE_LOW and take the stream list's first eligible tile; the formatter formats a raw
frame of a subchannel that serves; a checkpoint writes the block changed longest ago. -/
def Claim.FramesAndCheckpoints : Prop :=
  ∀ (h : Half) (s : State),
    (∀ t, s.dev.freeFrames h < (s.dev.reg h pgTIER 0x068).toNat →
      let d := s.dev.upd h fun x => { x with tier := { x.tier with evicting := true } }
      (d.half h).tier.streamList.find? (fun t => d.evictable h t) = some t → Runs (.eviction h) s
        (((d.evict h t).upd h fun x => { x with tier := { x.tier with streamList := x.tier.streamList.erase t } }).settleT)) ∧
    (∀ k n f, k < 24 → s.dev.subOk h k = true → s.dev.subFrame h k .freeRaw = some (n, f) →
      Runs (.frameFormatted h k) s (s.dev.formatFrame h f).settleT) ∧
    (∀ b bs, (s.dev.half h).tier.changed = b :: bs → Runs (.manifestCheckpoint h) s
      (((s.dev.upd h fun x => { x with tier := { x.tier with
        changed := bs
        ckptMark := max x.tier.ckptMark x.sail.current
        ckpt := (x.tier.ckpt.filter fun e => decide (e.1 / 4096 < b)) ++ (x.tier.manf.filter fun e => e.1 / 4096 == b)
          ++ x.tier.ckpt.filter fun e => decide (b < e.1 / 4096) } }).dirtyNote h).settleT))

/-- The age clock advances by one a tick, and on every 64th the sweeper holds a resident tile's age at 191 at most; nothing else
changes before held requests are looked at again. -/
def Claim.AgeTicks : Prop :=
  ∀ (h : Half) (s : State),
    let c := (s.dev.half h).tier.ageClock + 1
    (c.toNat % 64 ≠ 0 → Runs (.ageTick h) s ((s.dev.upd h fun x => { x with tier := { x.tier with ageClock := c } }).settleT)) ∧
    (∃ m, Runs (.ageTick h) s ((s.dev.upd h fun x => { x with tier := { x.tier with ageClock := c, manf := m } }).settleT) ∧
      (c.toNat % 64 = 0 → ∀ e ∈ m, TileStateResident e.2.state = true → (c - e.2.age).toNat ≤ 191))

/-- The head of the re-homing queue takes a new frame, from NAND where its copy is fresh and else from the twin; the end of a
retirement copy moves FRAME and retires the old frame. -/
def Claim.RehomingAndRetirement : Prop :=
  ∀ (h : Half) (s : State),
    (∀ t, (s.dev.half h).tier.rehome.find? (fun t => (s.dev.tile h t).state == .dark) = some t →
      let e := s.dev.tile h t
      let q := s.dev.takeFrame h e.ld.toNat .freeRaw .freeFmt true
      let d := match q.1 with
        | some f => q.2.setFrame h f { state := .used, tile := t }
        | none => q.2
      Runs (.reHoming h) s ((d.upd h fun x => { x with tier := { x.tier with
        rehome := x.tier.rehome.erase t
        promos := x.tier.promos ++ [{ tile := t, frame := q.1, rehome := true, twin := !(d.nandFresh h e) }] } }).settleT)) ∧
    (∀ c, (s.dev.half h).tier.copying = some c →
      let d := (s.dev.bufIssueTile h c.tile).copyFrame h c
      Runs (.retirementCopyDone h) s ((((d.setTile h c.tile { d.tile h c.tile with frame := BitVec.ofNat 27 c.new }).upd h fun x =>
        { x with tier := { x.tier with copying := none } }).retireSet h c.old).settleT))

/-- The tier commands run on `CMD_ARG` where no command runs: PIN_TILE pins and runs on, UNPIN_TILE unpins and ends, SINK_TILE and
EVICT_TILE run on, a tile of the other half or beyond the backed ones ends INVALID (3), and a second command is refused. -/
def Claim.TierCommands : Prop :=
  ∀ (org : Origin) (h : Half) (s : State), s.dev.takes org h pgTIER 0x078 = true →
    let d (op : Nat) := s.dev.entry org h pgTIER 0x078 op
    let arg (op : Nat) := (d op).reg64 h pgTIER 0x070
    let t (op : Nat) := arg op % 2 ^ 35
    let here (op : Nat) : Prop := bitsOf (arg op) 35 35 = h.num ∧ t op < ((d op).half h).tier.backed
    let start (op : Nat) (e : Dev) (left : List Nat) : Dev := (e.upd h fun x => { x with tier := { x.tier with
      cmd := some { op, arg := arg op, left } } }).tierStatus h 1
    (((d 1).half h).tier.cmd = none → here 1 → 8 * ((d 1).pinned h + 1) ≤ (d 1).poolFrames h →
      Runs (.pinTile org h) s (start 1 ((d 1).setTile h (t 1) { (d 1).tile h (t 1) with pinned := true }) []).settleT) ∧
    (((d 2).half h).tier.cmd = none → here 2 → Runs (.unpinTile org h) s
      (((d 2).setTile h (t 2) { (d 2).tile h (t 2) with pinned := false }).tierEnd h 2).settleT) ∧
    (((d 3).half h).tier.cmd = none → here 3 → Runs (.sinkTile org h) s (start 3 (d 3) []).settleT) ∧
    (((d 4).half h).tier.cmd = none → here 4 → Runs (.evictTile org h) s (start 4 (d 4) []).settleT) ∧
    (((d 4).half h).tier.cmd = none → ((d 4).half h).tier.backed ≤ t 4 → Runs (.evictTile org h) s ((d 4).tierEnd h 3).settleT) ∧
    (((d 1).half h).tier.cmd ≠ none → Runs (.pinTile org h) s (s.dev.refusal org h pgTIER 0x078 1).settleT)

/-- Retirement commands: a frame that does not exist ends INVALID (3), a frame already retired ends done (2), and a frame of the
pool is noted among the retired and its retirement begins; a bank's frames are retired one by one. -/
def Claim.RetirementCommands : Prop :=
  ∀ (org : Origin) (h : Half) (s : State), s.dev.takes org h pgTIER 0x078 = true →
    let d := s.dev.entry org h pgTIER 0x078 5
    let f := d.reg64 h pgTIER 0x070 % 2 ^ 27
    ((d.half h).tier.cmd = none → 24 ≤ frameSub f → Runs (.retireFrame org h) s (d.tierEnd h 3).settleT) ∧
    ((d.half h).tier.cmd = none → frameSub f < 24 → frameLocal f < (d.chan h (frameSub f / 2)).framesPerSub →
      frameLocal f < d.poolOf h (frameSub f) →
      ((d.frame h f).state = .retired → Runs (.retireFrame org h) s (d.tierEnd h 2).settleT) ∧
      ((d.frame h f).state = .freeRaw → f ∉ (d.half h).tier.retired → (d.half h).tier.retired.length < 65536 →
        let e := d.upd h fun x => { x with tier := { x.tier with retired := f :: x.tier.retired } }
        (e.frame h f).state = .freeRaw → Runs (.retireFrame org h) s
          (((e.upd h fun x => { x with tier := { x.tier with
            cmd := some { op := 5, arg := d.reg64 h pgTIER 0x070, left := [f] } } }).tierStatus h 1).settleT))) ∧
    (let d := s.dev.entry org h pgTIER 0x078 6
     let arg := d.reg64 h pgTIER 0x070
     let k := bitsOf arg 20 16
     let rb := bitsOf arg 11 8 * 32 + bitsOf arg 4 0
     let nb := d.ranks h (k / 2) * 32
     let code := 2 ^ 27 + k * 512 + rb
     (d.half h).tier.cmd = none → k < 24 → rb < nb → (d.chan h (k / 2)).framesPerSub ≠ 0 → code ∉ (d.half h).tier.retired →
      (d.half h).tier.retired.length < 65536 → Runs (.retireBank org h) s
        ((((d.upd h fun x => { x with tier := { x.tier with retired := code :: x.tier.retired } }).upd h fun x =>
          { x with tier := { x.tier with cmd := some { op := 6, arg
                                                       left := (List.range ((d.poolOf h k + nb - 1 - rb) / nb)).map fun r =>
                                                         k * 2 ^ 22 + r * nb + rb } } }).tierStatus h 1).settleT))

/-- Stream windows: OPEN = 1 over a range outside the LD's extents fails RANGE (4), OPEN = 0 closes, and an idle window ends with
status 5 and `STREAM_CLOSED`. -/
def Claim.StreamWindows : Prop :=
  ∀ (org : Origin) (h : Half) (c k : Nat) (s : State), k < 4 → c < 64 →
    let off := 0x14C + 16 * k
    let v := (s.dev.reg h (pgLDP c) off).toNat
    (s.dev.takes org h (pgLDP c) off = true →
      let d := s.dev.entry org h (pgLDP c) off (2 ^ 31 + v)
      (d.extents h c = [] → Runs (.streamOpen org h c k) s
        (d.updLd h c fun x => { x with streams := lmod x.streams k fun w => { w with isOpen := false, status := 4 } }).settleT) ∧
      (∀ e, Dev.streamOpen h c k d = some e → Runs (.streamOpen org h c k) s e.settleT) ∧
      Runs (.streamClose org h c k) s ((s.dev.entry org h (pgLDP c) off v).streamEnd h c k 0).settleT) ∧
    (let w := (s.dev.ldc h c).streams.getD k {}
     w.isOpen = true → Runs (.streamIdleClose h c k) s
      (((s.dev.streamEnd h c k 5).raise (lineHalf (w.start * 1024)) pgTIER .streamClosed
        (s.dev.ldNum h c) k).settleT))

/-- `MANF.PEEK` copies a tile's 128-bit entry into the four words of `PEEK_ENTRY` and changes no other register of the page; it
takes no journal entry. -/
def Claim.ManifestPeek : Prop :=
  ∀ (org : Origin) (h : Half) (tile : Nat) (s : State), s.dev.takes org h pgMANF 0x0A0 false = true →
    ∃ d : Dev, Runs (.manfPeek org h tile) s d ∧ (d.half h).ctl.journal = (s.dev.half h).ctl.journal ∧
      (∀ n, n < 4 → (d.reg h pgMANF (0x0B0 + 4 * n)).toNat = (s.dev.tile h (tile % 2 ^ 35)).bits / 2 ^ (32 * n) % 2 ^ 32) ∧
      (∀ off, off < 4096 → off % 4 = 0 → off ≠ 0x0A0 → off ≠ 0x0A4 → off / 16 ≠ 0x0B → d.reg h pgMANF off = s.dev.reg h pgMANF off) ∧
      (∀ t, d.tile h t = s.dev.tile h t)

/-! ### The line format (R123 to R134) -/

/-- The code of a data word corrects every single flipped bit, of the data or of the check, and finds every double one. -/
def Obligations.DataCodeCorrectsOneDetectsTwo : Prop :=
  ∀ (w : BitVec 128), decodeData w (dataCheck w) = ⟨.clean, 0, w, dataCheck w⟩ ∧
    (∀ i, i < 128 → decodeData (w ^^^ BitVec.twoPow 128 i) (dataCheck w) = ⟨.corrected, dataCol i, w, dataCheck w⟩) ∧
    (∀ j, j < 9 → decodeData w (dataCheck w ^^^ BitVec.twoPow 9 j) = ⟨.corrected, BitVec.twoPow 9 j, w, dataCheck w⟩) ∧
    (∀ i k, i < 128 → k < 128 → i ≠ k →
      (decodeData (w ^^^ BitVec.twoPow 128 i ^^^ BitVec.twoPow 128 k) (dataCheck w)).verdict = .bad) ∧
    (∀ i j, i < 128 → j < 9 → (decodeData (w ^^^ BitVec.twoPow 128 i) (dataCheck w ^^^ BitVec.twoPow 9 j)).verdict = .bad) ∧
    (∀ j k, j < 9 → k < 9 → j ≠ k → (decodeData w (dataCheck w ^^^ BitVec.twoPow 9 j ^^^ BitVec.twoPow 9 k)).verdict = .bad)

/-- The code of a tag word does the same. -/
def Obligations.TagCodeCorrectsOneDetectsTwo : Prop :=
  ∀ (w : BitVec 18), decodeTag w (tagCheck w) = ⟨.clean, 0, w, tagCheck w⟩ ∧
    (∀ i, i < 18 → decodeTag (w ^^^ BitVec.twoPow 18 i) (tagCheck w) = ⟨.corrected, tagCol i, w, tagCheck w⟩) ∧
    (∀ j, j < 6 → decodeTag w (tagCheck w ^^^ BitVec.twoPow 6 j) = ⟨.corrected, BitVec.twoPow 6 j, w, tagCheck w⟩) ∧
    (∀ i k, i < 18 → k < 18 → i ≠ k →
      (decodeTag (w ^^^ BitVec.twoPow 18 i ^^^ BitVec.twoPow 18 k) (tagCheck w)).verdict = .bad) ∧
    (∀ i j, i < 18 → j < 6 → (decodeTag (w ^^^ BitVec.twoPow 18 i) (tagCheck w ^^^ BitVec.twoPow 6 j)).verdict = .bad) ∧
    (∀ j k, j < 6 → k < 6 → j ≠ k → (decodeTag w (tagCheck w ^^^ BitVec.twoPow 6 j ^^^ BitVec.twoPow 6 k)).verdict = .bad)

/-- A stored line with every word written reads back as it was written, and so it does after any one of its 512 data bits or of the
108 check and tag bits of its sideband has flipped, which `fixed` undoes; a flipped bit of the address check is uncorrectable with
cause ADDRESS. -/
def Obligations.StoredLineSurvivesOneFlip : Prop :=
  ∀ (line : Nat) (d : LineData) (t : Tags), t.w = 0xF → t.state = 0 →
    let l := encodeLine line d t
    let reads (m : SLine) (v : LineVerdict) : Prop :=
      let r := decodeLine line true none m
      r.verdict = v ∧ r.tags = t ∧ r.data = d ∧ r.fixed = l
    reads l .clean ∧
    (∀ i, i < 512 → reads { l with data := l.data ^^^ BitVec.twoPow 512 i } .corrected) ∧
    (∀ i, i < 108 → reads { l with side := l.side ^^^ BitVec.twoPow 128 i } .corrected) ∧
    (∀ i, 108 ≤ i → i < 128 → (decodeLine line true none { l with side := l.side ^^^ BitVec.twoPow 128 i }).verdict = .bad 1)

/-! ### Scrub, repairs and diagnosis (R139 to R151) -/

/-- Scrub: the next line of a subchannel's pool is read and the position goes past it; where none is left the pass may end; a
scrub that is off reads nothing. -/
def Claim.ScrubReads : Prop :=
  ∀ (h : Half) (k : Nat) (err : SLine) (unit verdict cw sy : Nat) (s : State),
    (s.dev.fld h pgSCOR 0x040 31 31 = 0 → Runs (.scrubRead h k err unit verdict cw sy) s s.dev.settleT) ∧
    (s.dev.fld h pgSCOR 0x040 31 31 = 1 → k ∈ s.dev.subs h → s.dev.islandDark h 20 = false →
      let pos := smGetD (s.dev.half h).ecc.scrubPos k 0
      (s.dev.scrubNext h k pos = none → Runs (.scrubRead h k err unit verdict cw sy) s (s.dev.scrubPass h).settleT) ∧
      (∀ p, s.dev.scrubNext h k pos = some p →
        let late := decide (s.dev.scrubNs h / max 1 ((s.dev.chan h (k / 2)).framesPerSub * 1024) * p + 3600000000000
          < s.dev.uptime - (s.dev.half h).ecc.scrubStart)
        let d := s.dev.updSub h k fun c => { c with scrubBoost := late }
        p / 1024 < d.poolOf h k → Runs (.scrubRead h k err unit verdict cw sy) s
          ((((d.scrubLine h (k * 4194304 + p / 1024) (p % 1024) err).upd h fun x =>
            { x with ecc := { x.ecc with scrubPos := smPut x.ecc.scrubPos k 0 (p + 1) } }).scrubPass h).settleT)))

/-- The SRAM sweep of a half whose Landing cache is empty reads the three stores, and a directory entry lost in both copies drops
its slot and disables its way with `LAND_DIR_LOST`. -/
def Claim.SramSweeps : Prop :=
  ∀ (h : Half) (k : Nat) (s : State),
    ((s.dev.half h).land.slots = [] →
      Runs (.sramSweep h [] [] []) s ((((s.dev.injTally h 1 7 0).injTally h 2 8 0).injTally h 3 9 0).settleT)) ∧
    (let d := ((s.dev.landDrop h k).wayDisable h (k % 16) true).raise h pgLAND .landDirLost (k / 16) (k % 16)
     (d.half h).land.slots = [] →
      Runs (.sramSweep h [] [k] []) s ((((d.injTally h 1 7 0).injTally h 2 8 0).injTally h 3 9 0).settleT))

/-- Repairs: the oldest entry of the repeat filter expires; a NAND copy that serves gives the line its
image's bytes under the line's own tweak, and one that does not goes on to the twin; a repair whose
tile is now sealed recalls; a read held for REPAIR_HOLD returns poison and leaves the repair's queue. -/
def Claim.RepairsGoOn : Prop :=
  ∀ (h : Half) (r : Repair) (s : State),
    Runs (.repeatFilterExpiry h) s (s.dev.upd h fun x => { x with ecc := { x.ecc with filter := x.ecc.filter.tail } }) ∧
    ((s.dev.half h).ecc.repairs.find? (fun r => r.stage == .nand) = some r →
      Runs (.lineRepairNandDone h false) s (s.dev.repairStep2 h r).settleT) ∧
    (∀ i, (s.dev.half h).ecc.repairs.find? (fun r => r.stage == .nand) = some r →
      s.dev.nandImg h (s.dev.tile h (lineTile r.line)).nand.toNat = some i → s.dev.imgOk h i = true →
      let k := s.dev.kslot h i.slot.toNat
      let p := k.pair i.phase
      let x := (tileXts false p.1 p.2 k.gen i.phase i.tile i.data).getD (lineJ r.line) 0
      Runs (.lineRepairNandDone h true) s
        (((s.dev.putFrameLine h (s.dev.tile h (lineTile r.line)).frame.toNat (lineJ r.line)
          (encodeLine r.line (lineXts true p.1 p.2 k.gen i.phase r.line x)
            (mkTags (BitVec.ofNat 18 i.sailing) 0 i.slot i.phase (i.poison.getLsbD (lineJ r.line)) 0xF false i.ld))).repairEnd h r.line
          (some 1)).settleT)) ∧
    ((s.dev.half h).ecc.repairs.find? (fun r => r.stage == .sealWait && s.dev.mirroredOk h (s.dev.tile h (lineTile r.line)).lastSailing)
        = some r → Runs (.lineRecallAfterSeal h) s (s.dev.repairStep2 h r).settleT) ∧
    (∀ line q qs, s.dev.repairOf h line = some r → r.held = q :: qs → q.kind = .read →
      let d := s.dev.upd h fun x => { x with ecc := { x.ecc with
        repairs := x.ecc.repairs.map fun y => if y = r then { y with held := qs } else y } }
      Runs (.repairHoldExpiry h line) s (d.respondPoison h q (d.lastSailing h (d.tile h (lineTile line)))).settleT)

/-- The `ECCD` commands on the diagnostic line that `LINE` selects: WRITE_RAW stores WDATA and WSIDE as they are, WRITE_ENC stores
them encoded over the address given, READ_RAW returns the stored bits, and READ_DECODE decodes them; each ends DONE with
`ECCD_DONE`. -/
def Claim.EccdCommands : Prop :=
  ∀ (org : Origin) (h : Half) (s : State), s.dev.takes org h pgECCD 0x0A0 = true →
    let d (op : Nat) := s.dev.entry org h pgECCD 0x0A0 op
    let key (op : Nat) := (d op).fld h pgECCD 0x040 27 24 * 1024 + (d op).fld h pgECCD 0x040 9 0
    let data (op : Nat) : LineData := BitVec.ofNat 512 ((d op).words h pgECCD 0x050 16)
    let side (op : Nat) : Nat := (d op).words h pgECCD 0x090 4
    let line (op : Nat) := (d op).reg64 h pgECCD 0x048 / 64 % 2 ^ 46
    Runs (.writeRaw org h) s (((d 1).setDiag h (key 1) { data := data 1, side := BitVec.ofNat 128 (side 1) }).eccdDone h 0).settleT ∧
    Runs (.writeEnc org h) s (((d 2).setDiag h (key 2) (encodeLine (line 2) (data 2) (sideTags (side 2)))).eccdDone h 0).settleT ∧
    Runs (.readDecode org h) s ((d 3).eccdDecode h ((d 3).diagLine h (key 3))).settleT ∧
    Runs (.readRaw org h) s (((((d 4).setWords h pgECCD 0x0C0 16 ((d 4).diagLine h (key 4)).data.toNat).setWords h pgECCD 0x100 4
      ((d 4).diagLine h (key 4)).side.toNat).eccdDone h 0).settleT) ∧
    (∀ sub, sub < 32 → let e := d (5 + sub * 256)
      (∀ t, e.relocate h (e.fld h pgECCD 0x040 27 24) sub = some t → Runs (.relocate org h sub) s t.settleT) ∧
      (24 ≤ sub → Runs (.relocate org h sub) s ((s.dev.refusal org h pgECCD 0x0A0 (5 + sub * 256)).setFld h pgECCD 0x0A4 31 30 3).settleT))

/-- `SRAM_INJ` arms one injection into a unit that may be injected, and refuses the key-slot store and the ledger outside a test
state; `SCOR.SEL` shows an entry; `SCOR.ACK` acknowledges a HARD entry and leaves any other. -/
def Claim.InjectionAndScoresheet : Prop :=
  ∀ (org : Origin) (h : Half) (s : State),
    (s.dev.takes org h pgECCD 0x120 = true →
      let w := (s.dev.reg h pgECCD 0x120).toNat
      let v := 2147483648 + w % 2147483648
      (bitsOf w 27 24 < 2 → Runs (.sramInj org h) s
        ((s.dev.entry org h pgECCD 0x120 v).upd h fun x => { x with ecc := { x.ecc with injArmed := true } })) ∧
      (s.dev.testOn (s.otp.get h) h = false → bitsOf w 27 24 = 2 → Runs (.sramInj org h) s (s.dev.refusal org h pgECCD 0x120 v))) ∧
    (∀ i, i < 256 → s.dev.takes org h pgSCOR 0x050 false = true → let d := s.dev.wake h (pageIsland pgSCOR)
      Runs (.scorSel org h i) s
        ((d.setReg h pgSCOR 0x050 i).setWords h pgSCOR 0x060 8 ((d.half h).ecc.sheet.getD i {}).bits)) ∧
    (∀ i, i < 256 → s.dev.takes org h pgSCOR 0x054 = true → let d := s.dev.entry org h pgSCOR 0x054 i
      let e := (d.half h).ecc.sheet.getD i {}
      (e.cls ≠ clsHard → Runs (.scorAck org h i) s d) ∧
      (e.cls = clsHard → let a := d.upd h fun x => { x with ecc := { x.ecc with sheet := x.ecc.sheet.set i { e with ack := true } } }
        decide (0 < d.hardOpen h) = decide (0 < a.hardOpen h) → Runs (.scorAck org h i) s a))

/-! ### DRAM channels (R161 to R178) -/

/-- Subchannels in service: each refresh is counted, ZQ goes from rank to rank, and an idle subchannel enters self-refresh where
`SR_IDLE_US` allows it; one in self-refresh takes neither command. -/
def Claim.SubchannelUpkeep : Prop :=
  ∀ (h : Half) (k : Nat) (s : State), k < 24 →
    (s.dev.subOk h k = true → (s.dev.sub h k).state ≠ .selfRefresh →
      Runs (.refresh h k) s (s.dev.updSub h k fun c => { c with refreshes := c.refreshes + 1 }) ∧
      Runs (.zqCalibration h k) s (s.dev.updSub h k fun c => { c with zqRank := (c.zqRank + 1) % s.dev.ranks h (k / 2) })) ∧
    ((s.dev.sub h k).state = .up → (s.dev.half h).tier.dramReads = [] → s.dev.subHeld h k = false →
      s.dev.fld h (pgMEMC (k / 2)) 0x040 31 16 ≠ 0 →
      Runs (.selfRefreshEntry h k) s ((s.dev.updSub h k fun c => { c with state := .selfRefresh }).wrap32 h (pgMEMC (k / 2)) 0x074)) ∧
    ((s.dev.sub h k).state = .selfRefresh → Runs (.refresh h k) s s.dev ∧ Runs (.zqCalibration h k) s s.dev)

/-- Parity alerts: a replay that succeeds wakes both subchannels, counts one alert and raises `PARITY_REPLAY` for each; one that
fails for the third time within a millisecond starts a CA retrain. -/
def Claim.ParityAlerts : Prop :=
  ∀ (h : Half) (c : Nat) (s : State), c < 12 → s.dev.liveSubs h c ≠ [] →
    let pg := pgMEMC c
    let d := (s.dev.liveSubs h c).foldl (fun d k => d.subWake h k) (s.dev.sat h pg 0x068)
    Runs (.alertN h c false 0) s ((d.liveSubs h c).foldl (fun d k => d.raise h pg .parityReplay k) d).settleT ∧
    (let e := d.sat h pg 0x06C
     let fails := e.uptime :: ((e.chan h c).replayFails.filter fun t => decide (e.uptime < t + 1000000))
     (fails.length < 3 → Runs (.alertN h c true 0) s
      ((e.liveSubs h c).foldl (fun d k => d.raise h pg .parityReplay k) (e.updChan h c fun x => { x with replayFails := fails })).settleT) ∧
     (3 ≤ fails.length → let e := (e.updChan h c fun x => { x with replayFails := [] }).raise h pg .replayRetrain (2 * c)
      e.mgmtLost h = false → Runs (.alertN h c true 0) s ((e.liveSubs h c).foldl (fun d k => d.updSub h k fun x =>
        { x with resume := if x.state == .retraining then x.resume else x.state, state := .retraining }) e).settleT))

/-- Retraining: a CA retrain resumes each subchannel with `TRAIN_DONE`, or fails it; a drift retrain goes on slice by slice and a
failed one fails its subchannel. -/
def Claim.Retraining : Prop :=
  ∀ (h : Half) (c k : Nat) (s : State), c < 12 → k < 24 →
    (∀ ok0 ok1, (s.dev.sub h (2 * c)).state = .retraining →
      let d := if ok0 then (s.dev.updSub h (2 * c) fun x => { x with state := x.resume }).raise h (pgMEMC c) .trainDone (2 * c)
        else s.dev.subFail h (2 * c)
      (d.sub h (2 * c + 1)).state ≠ .retraining → Runs (.caRetrainDone h c ok0 ok1) s d.settleT) ∧
    ((s.dev.sub h k).driftSlices ≠ 0 → (s.dev.sub h k).state ≠ .retraining → (s.dev.sub h k).state ≠ .freqChange → ∀ new,
      (∀ ok, Runs (.driftRetrainSlice h k false ok new) s
        (s.dev.updSub h k fun y => { y with driftSlices := y.driftSlices + 1 }).settleT) ∧
      Runs (.driftRetrainSlice h k true false new) s (s.dev.subFail h k).settleT ∧
      (let d := s.dev.updChan h (k / 2) fun y => { y.setArr y.setB
        (new.foldl (fun m e => smPut m e.1 (arrReset e.1) (BitVec.ofNat 32 e.2)) (y.arr y.setB)) with trainTemp := y.caseTemp }
       Runs (.driftRetrainSlice h k true true new) s
        ((d.updSub h k fun y => { y with driftSlices := 0, drift := List.replicate 10 0 }).raise h (pgMEMC (k / 2)) .trainDone k).settleT))

/-- A drift measurement applies its corrections and starts a retrain where a limit is passed and none runs; one that measures no
drift changes nothing while a retrain runs. -/
def Claim.DriftMeasurements : Prop :=
  ∀ (h : Half) (k : Nat) (s : State), k < 24 → s.dev.subOk h k = true →
    (∀ steps, let d := s.dev.driftApply h k steps
      ((d.sub h k).driftSlices ≠ 0 → Runs (.driftMeasure h k steps) s d) ∧
      (d.driftFar h k = false → Runs (.driftMeasure h k steps) s d) ∧
      ((d.sub h k).driftSlices = 0 → d.driftFar h k = true → let e := d.raise h (pgMEMC (k / 2)) .driftRetrain k
        e.mgmtLost h = false → Runs (.driftMeasure h k steps) s (e.updSub h k fun y => { y with driftSlices := 1 }))) ∧
    s.dev.driftApply h k [] = s.dev

/-- The timing set: an order is refused while firmware trains and is only recorded while T3 is in force; the end of an island's
change raises `FREQ_DONE` for its subchannels and starts the next island. -/
def Claim.TimingSets : Prop :=
  ∀ (org : Origin) (h : Half) (c v : Nat) (s : State), c < 12 →
    (s.dev.takes org h (pgMEMC c) 0x054 = true → let d := s.dev.entry org h (pgMEMC c) 0x054 (v % 2)
      let e := d.upd h fun x => { x with dram := { x.dram with freqSel := v % 2 == 1 } }
      ((d.half h).dram.trained = false →
        Runs (.freqSel org h c v) s (s.dev.refusal org h (pgMEMC c) 0x054 (v % 2)).settleT) ∧
      ((d.half h).dram.trained = true → (e.half h).thrm.step = 3 → Runs (.freqSel org h c v) s e.settleT) ∧
      ((d.half h).dram.trained = true → (e.half h).thrm.step ≠ 3 → Runs (.freqSel org h c v) s (e.orderSet h (v % 2 == 1)).settleT)) ∧
    (∀ i b, (s.dev.half h).dram.changing = some (i, b) → (∀ k ∈ s.dev.isleSubs h i, (s.dev.sub h k).state ≠ .retraining) →
      let d := [2 * i, 2 * i + 1].foldl (fun d c => d.updChan h c fun x => { x with setB := b }) s.dev
      let e := ((d.isleSubs h i).foldl (fun d k =>
        (d.updSub h k fun x => if x.state == .freqChange then { x with state := .up } else x).raise h (pgMEMC (k / 2)) .freqDone k) d)
        |>.setIsland h (i + 1) b
      ((e.half h).dram.changing.isSome = true ∨ (e.half h).dram.nextOrder = none) → Runs (.freqChangeDone h) s e.settleT)

/-- The nine runs of `DTRN.RUN` start in training mode with a seed that is not 0: the lane errors clear, the run is pending, and
RUN_STATUS shows 1; outside training mode all but OP 9 are refused with status 3. -/
def Claim.TrainingRunsStart : Prop :=
  ∀ (org : Origin) (h : Half) (c bursts rep : Nat) (s : State), c < 12 → s.dev.takes org h (pgDTRN c) 0x050 = true →
    let pg := pgDTRN c
    let v (op : Nat) := rep % 65536 * 65536 + bursts % 256 * 256 + op
    let d (op : Nat) := s.dev.entry org h pg 0x050 (v op)
    let may (e : Dev) : Prop := e.fld h pg 0x040 31 31 = 1 ∧ (e.reg h pg 0x04C).toNat % 2147483648 ≠ 0 ∧ e.fld h pg 0x048 31 30 ≠ 3 ∧
      (e.chan h c).runPending = none
    let row (e : Dev) := (e.fld h pg 0x040 23 20, e.fld h pg 0x040 19 15, e.fld h pg 0x044 17 0)
    let starts (i : Instr) (op : Nat) (save : Bool) : Prop := may (d op) →
      Runs i s (((((d op).setWords h pg 0x060 3 0).setWords h pg 0x070 40 0).updChan h c fun x =>
        { x with runPending := some op, saved := if save then some (row (d op)) else none }).runStatus h c 1 0)
    starts (.dtrnWritePattern org h c bursts rep) 1 true ∧ starts (.dtrnReadCompare org h c bursts rep) 2 false ∧
    starts (.dtrnWriteReadCompare org h c bursts rep) 3 true ∧ starts (.dtrnTrainingPatternRead org h c bursts rep) 4 false ∧
    starts (.dtrnCsLoopback org h c bursts rep) 5 false ∧ starts (.dtrnCaLoopback org h c bursts rep) 6 false ∧
    starts (.dtrnWriteLevelSample org h c bursts rep) 7 false ∧ starts (.dtrnGateSample org h c bursts rep) 8 false ∧
    starts (.dtrnDqsOscillator org h c bursts rep) 9 false ∧
    ((d 1).fld h pg 0x040 31 31 = 0 → Runs (.dtrnWritePattern org h c bursts rep) s
      ((s.dev.refusal org h pg 0x050 (v 1)).setFld h pg 0x054 31 30 3))

/-- A run ends with `DTRN_DONE`, its value and no run pending; a mode-register write is kept and a read returns what was written
last, each DONE at once. -/
def Claim.TrainingRunsEnd : Prop :=
  ∀ (org : Origin) (h : Half) (c : Nat) (s : State), c < 12 →
    let pg := pgDTRN c
    (∀ op errs val, (s.dev.chan h c).runPending = some op → 5 ≤ op →
      let d := ((List.range 40).foldl (fun d k => d.setReg h pg (0x070 + 4 * k) 0) s.dev).setWords h pg 0x060 3 0
      Runs (.dtrnRunDone h c errs val) s
        (((d.updChan h c fun x => { x with runPending := none, saved := none }).runStatus h c 2 val).raise h pg .dtrnDone)) ∧
    (∀ rcd rank addr val, let v := mrwWord rcd false rank addr val
      s.dev.takes org h pg 0x058 = true → let d := s.dev.entry org h pg 0x058 v
      Runs (.dtrnMrwWrite org h c rcd rank addr val) s
        (((d.updChan h c fun x => { x with modeRegs := smSet x.modeRegs (modeKey v) (BitVec.ofNat 8 v) }).runStatus h c 2
          (d.fld h pg 0x054 15 0)).raise h pg .dtrnDone)) ∧
    (∀ rcd rank addr b, let v := mrwWord rcd true rank addr 0
      s.dev.takes org h pg 0x058 = true → let d := s.dev.entry org h pg 0x058 v
      smGet (d.chan h c).modeRegs (modeKey v) = some b →
      Runs (.dtrnMrwRead org h c rcd rank addr) s ((d.runStatus h c 2 b.toNat).raise h pg .dtrnDone))

/-! ### The Landing cache (R182 to R190) -/

/-- The `LAND` commands: LOCK on an enabled way within the limit and UNLOCK end done, PRELOAD of nothing ends BAD_ARG (3), and any
command is refused while a preload runs. -/
def Claim.LandCommands : Prop :=
  ∀ (org : Origin) (h : Half) (w : Nat) (s : State), w < 16 → s.dev.takes org h pgLAND 0x05C = true →
    let v (op : Nat) := w * 65536 + op
    let d (op : Nat) := s.dev.entry org h pgLAND 0x05C (v op)
    let e (op : Nat) := (d op).setReg h pgLAND 0x05C (w * 65536)
    (((d 2).half h).land.preload = none → Runs (.lock org h w) s ((e 2).lockWay h w).settleT) ∧
    (((d 3).half h).land.preload = none → Runs (.unlock org h w) s
      (((((e 3).upd h fun x => { x with land := { x.land with locked := x.land.locked &&& ~~~(BitVec.twoPow 16 w) } }).landNote h).landEnd
        h 2).settleT)) ∧
    (((d 1).half h).land.preload = none → Runs (.preload org h w) s ((e 1).preload h w).settleT) ∧
    ((e 1).fld h pgLAND 0x058 17 0 = 0 → (e 1).preload h w = ((e 1).setReg h pgLAND 0x060 0).landEnd h 3) ∧
    (((d 1).half h).land.preload ≠ none → Runs (.preload org h w) s (s.dev.refusal org h pgLAND 0x05C (v 1)).settleT)

/-- The cache's own events: a preload of tiles that are not rising ends done, a way whose walk has written everything back is
invalidated with `WAY_DISABLED`, its tally expires, a drained cache is DISABLED with `DRAIN_DONE`, and the buffer's oldest write
issues. -/
def Claim.LandEvents : Prop :=
  ∀ (h : Half) (way : Nat) (s : State),
    (∀ c, (s.dev.half h).land.preload = some c → ((rangeTiles c.first c.len).any fun t => (s.dev.tile h t).state == .rising) = false →
      let r := ((List.range c.len).map (c.first + ·)).foldl (Dev.preloadLine h c.way) (0, [], s.dev)
      let d := r.2.2.upd h fun x => { x with land := { x.land with preload := none } }
      Runs (.landCmdDone h) s ((d.setReg h pgLAND 0x060 (r.1 % 2 ^ 18)).landEnd h 2).settleT) ∧
    (way ∈ (s.dev.half h).land.disabling → s.dev.landDirty h (fun k => k % 16 == way) = false →
      ((s.dev.half h).land.buf.any fun b => b.way == way) = false →
      Runs (.wayDisabled h way) s (((s.dev.upd h fun x => { x with land := { x.land with
        slots := x.land.slots.filter fun e => e.1 % 16 != way
        disabling := x.land.disabling.filter fun w => w != way } }).raise h pgLAND .wayDisabled way).settleT)) ∧
    (way < 16 → Runs (.wayTallyExpiry h way) s
      ((s.dev.upd h fun x => { x with land := { x.land with tallyStart := smDel x.land.tallyStart way } }).setReg h pgLAND
        (0x080 + 4 * way) 0)) ∧
    ((s.dev.half h).land.state = .draining → (s.dev.half h).land.slots = [] → (s.dev.half h).land.buf = [] →
      Runs (.drainDone h) s (((s.dev.upd h fun x => { x with land := { x.land with
        state := .disabled, slots := [], locked := 0 } }).raise h pgLAND .drainDone).settleT)) ∧
    Runs (.evictionBufferFree h) s (s.dev.bufIssue h).settleT

/-! ### The Ferry link (R193 to R222, R409) -/

/-- Codewords: one with more than 15 symbols in error is counted and answered by a NAK that names the last one in order, and one
out of order is discarded; either only moves the scrambler on besides. `LINK_CTL` is due after 32 and clears the count. -/
def Claim.FerryCodewords : Prop :=
  ∀ (h : Half) (bits : BitVec 5140) (fixed : Nat) (s : State), ((s.dev.half h).fery.link = .up ∨ (s.dev.half h).fery.link = .session) →
    let f := (s.dev.half h).fery
    let sc := scrambler 5140 f.lfsr 0
    let d := s.dev.updFery h fun f => { f with lfsr := sc.1 }
    (15 < fixed → Runs (.ferryCodeword h bits fixed) s
      ((((d.wrap64 h pgFERY 0x0B8).updFery h fun f => { f with nakSent := true }).feryCtl h (.linkCtl f.rxCseq true)).settleT)) ∧
    (fixed = 0 → ((bits ^^^ BitVec.ofNat 5140 sc.2).extractLsb' 5120 20).extractLsb' 8 12 ≠ f.rxCseq + 1 →
      Runs (.ferryCodeword h bits fixed) s d.settleT) ∧
    Runs (.linkCtlDue h) s (((s.dev.updFery h fun f => { f with sinceAck := 0 }).feryCtl h (.linkCtl f.rxCseq false)).settleT)

/-- An alignment block whose marker stands gives the physical lane its number, checks BIP-8 and reloads the descrambler; one
without the marker or its inverse changes nothing. -/
def Claim.AlignmentBlocks : Prop :=
  ∀ (h : Half) (lane : Nat) (bits : BitVec 340) (bip : BitVec 8) (s : State),
    (bits.extractLsb' 300 40 = 0xF0C3A5960F#40 → bits.extractLsb' 284 8 = ~~~(bits.extractLsb' 292 8) →
      Runs (.ferryAlignmentBlock h lane bits bip) s (s.dev.updFery h fun f => { f with
        laneMap := smSet f.laneMap lane (bits.extractLsb' 292 8).toNat
        bipErrors := if bits.extractLsb' 276 8 = bip then f.bipErrors else f.bipErrors + 1
        lfsr := 0x7FFFFFFF })) ∧
    (bits.extractLsb' 300 40 ≠ 0xF0C3A5960F#40 → (~~~bits).extractLsb' 300 40 ≠ 0xF0C3A5960F#40 →
      Runs (.ferryAlignmentBlock h lane bits bip) s s.dev)

/-- Messages without a TAG of their own are taken from the front of what has been received: `LINK_CTL` acknowledges codewords and
a NAK is counted, `MIRROR_LINES` is staged with its sequence number, and `SIB_VERIFIED` raises the sibling's sailing. -/
def Claim.FerryMessagesWithoutTag : Prop :=
  ∀ (h : Half) (m : List (BitVec 256)) (s : State) (d : Dev),
    (s.dev.feryNext h 0x3F (fun _ => true) = some (m, d) →
      let e := d.updFery h fun f => match f.replay.findIdx? fun c => c == BitVec.ofNat 12 (sf (m.headD 0) 19 8) with
        | some i => { f with replay := f.replay.drop (i + 1) }
        | none => f
      Runs (.linkCtl h) s ((if (m.headD 0).getLsbD 20 then e.sat h pgFERY 0x0C0 else e).pump h).settleT) ∧
    (s.dev.feryNext h 0x01 (fun _ => true) = some (m, d) →
      let hd := m.headD 0
      Runs (.mirrorLines h) s (((d.updFery h fun f => { f with rxSeq := f.rxSeq + 1 }).stage h fun x => { x with
        msgs := x.msgs ++ [.mirror (BitVec.ofNat 18 (sf hd 25 8)) (BitVec.ofNat 7 (sf hd 32 26)) (BitVec.ofNat 10 (sf hd 42 33))
          (hd.getLsbD 43) (mirrorLines m)]
        slots := x.slots ++ m
        firstSeq := some (x.firstSeq.getD (d.half h).fery.rxSeq)
        nMsgs := x.nMsgs + 1
        nLines := x.nLines + (mirrorLines m).length }).settleT)) ∧
    (∀ n, s.dev.fordTake h 0 FordMsg.isSibVerified = some (.sibVerified n, d) →
      Runs (.sibVerified h) s (d.setReg64 h pgFERY 0x098 (max n (d.reg64 h pgFERY 0x098))).settleT)

/-- A sailing's close is checked: a wrong count of lines or messages is answered with status 1 and a wrong CMAC with status 2, each
of which stops the stream; a close that passes leaves the sailing verified and tells the sibling half. -/
def Claim.SailingCloses : Prop :=
  ∀ (h : Half) (m : List (BitVec 256)) (s : State) (d : Dev), s.dev.feryNext h 0x02 (fun _ => true) = some (m, d) →
    let hd := m.headD 0
    let n := sf hd 71 8
    let f := (d.half h).fery
    let x := (stageTop f.staged).1
    let e := d.updFery h fun f => { f with rxSeq := f.rxSeq + 1 }
    f.paired = true → f.stopTaking = false →
    ((x.nLines ≠ sf hd 95 72 ∨ x.nMsgs ≠ sf hd 119 96) → Runs (.sailingClose h) s (e.rejectSailing h n 1).settleT) ∧
    (x.nLines = sf hd 95 72 → x.nMsgs = sf hd 119 96 →
      let mac := sailingCmac ((f.keys.map (·.macRx)).getD 0) x.slots (noTag hd) (x.firstSeq.getD f.rxSeq) f.rxSeq
      (mac ≠ hd.extractLsb' 128 128 → Runs (.sailingClose h) s (e.rejectSailing h n 2).settleT) ∧
      (mac = hd.extractLsb' 128 128 →
        let y : Staged := { x with s := n, closed := true, verified := true, split := hd.getLsbD 6, slots := [] }
        let t := e.updFery h fun g => { g with staged := (stageTop f.staged).2 ++ [y] }
        Runs (.sailingClose h) s ((if t.single || y.split then t else t.fordSend h (.sibVerified n)).settleT)))

/-- Applying: a sailing that is not verified in both halves waits, one with a lost line is rejected with status 3, and an empty one
is applied, acknowledged with status 0 and shown in `APPLIED`. -/
def Claim.SailingsApply : Prop :=
  ∀ (h : Half) (x : Staged) (rest : List Staged) (s : State), (s.dev.half h).fery.staged = x :: rest →
    (s.dev.canApply h x = false → ∀ bad, Runs (.sailingApplyDone h bad) s s.dev.settleT) ∧
    (s.dev.canApply h x = true → Runs (.sailingApplyDone h true) s (s.dev.rejectSailing h x.s 3).settleT) ∧
    (s.dev.canApply h x = true → x.msgs = [] → (s.dev.half h).fery.freed = 0 → ∀ d,
      d = ((s.dev.updFery h fun f => { f with staged := rest, freed := 1, creditsDue := f.creditsDue }).setReg64 h pgFERY 0x090
        x.s).feryCtl h (.sailingAck x.s 0) → (d.half h).fery.rcvEnd = none → Runs (.sailingApplyDone h false) s d.settleT)

/-- Messages with a TAG that passes: an acknowledgement seals or declares the twin lost, a peer's heartbeat pairs the session, the
key events are staged at their place in the stream, and tile streams likewise. -/
def Claim.FerryMessagesWithTag : Prop :=
  ∀ (h : Half) (hd : BitVec 256) (ds : List (BitVec 256)) (s : State) (d : Dev),
    (s.dev.feryRecv h 0x03 (fun _ => true) = (some (hd :: ds), d) →
      (sf hd 75 72 ≠ 0 → Runs (.sailingAck h) s (((d.raise h pgFERY .sailingRejected (sf hd 71 8)).loseTwin h none).settleT)) ∧
      (sf hd 75 72 = 0 →
        let e := (d.upd h fun x => { x with sail := { x.sail with
          ledger := x.sail.ledger.map fun e => if e.s ≤ sf hd 71 8 then { e with acked := true } else e } }).seal
        (e.half h).fery.srcEnd = none → Runs (.sailingAck h) s e.settleT)) ∧
    (s.dev.feryRecv h 0x0B (fun s => sf s 7 6 == 0) = (some (hd :: ds), d) → Runs (.keyEventLoadPhase h) s (d.keyMsg h hd ds).settleT) ∧
    (s.dev.feryRecv h 0x0B (fun s => sf s 7 6 == 1) = (some (hd :: ds), d) → sf hd 7 6 = 1 →
      Runs (.keyEventErase h) s ((d.stage h fun x => { x with msgs := x.msgs ++
        [.keyEvent 1 (BitVec.ofNat 10 (sf hd 17 8)) (hd.getLsbD 18) (BitVec.ofNat 32 (sf hd 50 19)) []] }).settleT)) ∧
    (s.dev.feryRecv h 0x0B (fun s => sf s 7 6 == 2) = (some (hd :: ds), d) → sf hd 7 6 = 2 →
      Runs (.keyEventRetire h) s ((d.stage h fun x => { x with msgs := x.msgs ++
        [.keyEvent 2 (BitVec.ofNat 10 (sf hd 17 8)) (hd.getLsbD 18) (BitVec.ofNat 32 (sf hd 50 19)) []] }).settleT)) ∧
    (s.dev.feryRecv h 0x06 (fun s => sf s 7 6 != 3) = (some (hd :: ds), d) → sf hd 7 6 ≠ 0 →
      Runs (.tileStream h) s ((d.stage h fun x => { x with msgs := x.msgs ++
        [.tileMark (sf hd 7 6 == 2) (sf hd 43 8) (sf hd 107 44)] }).settleT))

/-- Recall and pull: the twin that has not applied the sailing wanted answers NOT_YET (2), one whose tile holds nothing answers
NO_DATA (1), and any other reads the line to answer; an answer whose tag no request has is dropped, and one to a
repair's request completes the repair; a tile pulled is streamed or waits; a finished capture enters the
stream. -/
def Claim.RecallsAndPulls : Prop :=
  ∀ (h : Half) (hd : BitVec 256) (ds : List (BitVec 256)) (s : State) (d : Dev),
    (s.dev.feryRecv h 0x04 (fun _ => true) = (some (hd :: ds), d) →
      let no (st : Nat) : Dev := d.feryCtl h (.recallResp (sf hd 69 54) st 0 0 false 0 false 0 0)
      let behind := (BitVec.ofNat 28 (d.reg64 h pgFERY 0x090) - BitVec.ofNat 28 (sf hd 97 70)).toNat
      (2 ^ 27 ≤ behind → Runs (.lineRecallReq h) s (no 2).settleT) ∧
      (behind < 2 ^ 27 → (d.tile h (lineTile (sf hd 53 8))).state = .blank → Runs (.lineRecallReq h) s (no 1).settleT) ∧
      (behind < 2 ^ 27 → (d.tile h (lineTile (sf hd 53 8))).state ≠ .blank → (d.tile h (lineTile (sf hd 53 8))).state ≠ .lost →
        (d.half h).fery.rcvOn = false → Runs (.lineRecallReq h) s (d.readGo h { src := .recall (sf hd 69 54)
                                                                                ld := (d.tile h (lineTile (sf hd 53 8))).ld.toNat
                                                                                line := sf hd 53 8
                                                                                kind := .read }).settleT)) ∧
    (s.dev.feryRecv h 0x05 (fun _ => true) = (some (hd :: ds), d) →
      (((d.half h).fery.recalls.find? fun q => q.rtag == sf hd 23 8) = none → Runs (.lineRecallResp h) s d.settleT) ∧
      (∀ q, ((d.half h).fery.recalls.find? fun q => q.rtag == sf hd 23 8) = some q → q.why = .repair → sf hd 27 24 = 0 →
        let tg := mkTags (BitVec.ofNat 18 (sf hd 45 28)) 0 (BitVec.ofNat 10 (sf hd 60 51)) (hd.getLsbD 61) false
          (BitVec.ofNat 4 (sf hd 49 46)) true (BitVec.ofNat 7 (sf hd 68 62))
        let l := encodeLine q.line (BitVec.ofNat 512 ((ds.getD 0 0).toNat + 2 ^ 256 * (ds.getD 1 0).toNat)) tg
        let e := (d.updFery h fun f => { f with recalls := f.recalls.erase q }).repairAnswer h q.line l tg
        Runs (.lineRecallResp h) s (Dev.recallPump h (e.half h).fery.recallWait e).settleT)) ∧
    (s.dev.feryRecv h 0x06 (fun s => sf s 7 6 == 3) = (some (hd :: ds), d) → let t := sf hd 43 8 % 2 ^ 35
      (∀ e, d.streamTile h t = some e → Runs (.tileStreamPull h) s e.settleT) ∧
      (d.streamTile h t = none → t ∉ (d.half h).fery.streamWait →
        Runs (.tileStreamPull h) s (d.updFery h fun f => { f with streamWait := f.streamWait ++ [t] }).settleT)) ∧
    (∀ t ts, (s.dev.half h).fery.capturing = t :: ts →
      let e := s.dev.updFery h fun f => { f with capturing := ts }
      TileStateResident (e.tile h t).state = true →
      Runs (.tileCaptureDone h) s ((((e.tileImage h t).2.feryStream h (.tileData (e.tileImage h t).1)).wrap64 h pgFERY 0x0F0).settleT))

/-- Resyncs: BEGIN discards what is staged and starts the receiver's walk at 0 with `RESYNC_START`, a walk's step is the source's
then the receiver's, its end sends END with the current sailing, and END adopts the source's generation. -/
def Claim.Resyncs : Prop :=
  ∀ (h : Half) (hd : BitVec 256) (ds : List (BitVec 256)) (s : State) (d : Dev),
    (s.dev.feryRecv h 0x07 (fun _ => true) = (some (hd :: ds), d) → (d.half h).fery.rcvOn = false → let n := sf hd 71 8
      let e := d.updFery h fun f => { f with
        staged := [], stopTaking := false, freed := 0
        rcvOn := true, rcvFull := hd.getLsbD 72, rcvS := n, rcvPos := 0, rcvWalked := false, rcvEnd := none }
      Runs (.resyncBegin h) s (((((e.setReg64 h pgFERY 0x0A0 n).setReg64 h pgFERY 0x0A8 0).setReg64 h pgFERY 0x0F0 0).raise h pgFERY
        .resyncStart).settleT)) ∧
    Runs (.resyncWalkTile h) s ((s.dev.srcWalk h).rcvWalk h).settleT ∧
    (let f := (s.dev.half h).fery
     f.srcOn = true → f.stopSending = false → f.srcWalked = true → f.streamWait = [] → f.capturing = [] → f.srcEnd = none →
      let n := (s.dev.half h).sail.current
      Runs (.resyncWalkDone h) s ((s.dev.updFery h fun f => { f with srcEnd := some n }).feryCtl h (.resyncEnd n)).settleT) ∧
    (s.dev.feryRecv h 0x08 (fun _ => true) = (some (hd :: ds), d) → (d.half h).fery.rcvOn = true → (d.half h).fery.handback ≠ 1 →
      let n := sf hd 71 8
      let e := (d.setReg64 h pgFERY 0x060 (d.half h).fery.peerOwnGen).updFery h fun f => { f with rcvEnd := some n }
      e.reg64 h pgFERY 0x090 < n → Runs (.resyncEnd h) s e.settleT)

/-- Heartbeats: a half with a session's keys sends one with its state each 10 ms; the peer's state is taken over, and a twin that
sends none is lost with cause 9. -/
def Claim.FerryHeartbeats : Prop :=
  ∀ (h : Half) (s : State),
    ((s.dev.half h).fery.keys.isSome = true →
      Runs (.heartbeatTimer h) s (s.dev.feryCtl h (s.dev.heartbeat h)).settleT ∧ Runs (.twinLost h) s (s.dev.loseTwin h (some 9)).settleT) ∧
    (∀ hd ds d, s.dev.feryRecv h 0x09 (fun _ => true) = (some (hd :: ds), d) → let x := ds.headD 0
      hd.getLsbD 75 = true → let e := d.updFery h fun f => { f with
        paired := true
        peerCurrent := sf hd 71 8, peerSplit := hd.getLsbD 73, peerMgmtW := hd.getLsbD 75, peerMgmtE := hd.getLsbD 76
        peerOwnGen := sf x 63 0, peerMirGen := sf x 127 64, peerApplied := sf x 191 128 }
      Runs (.heartbeat h) s (if (e.half h).fery.link = .session then e.genCompare h else e).settleT)

/-- Rekeys: SWITCH changes the receiver's keys and starts its sequence again, a rekey falls due at its sequence number and the twin
is lost near 2^48, and one of more than 100 ms waits for the next multiple of 2^32 messages. -/
def Claim.Rekeys : Prop :=
  ∀ (h : Half) (s : State),
    (∀ hd ds d r n k, s.dev.feryRecv h 0x0A (fun s => sf s 7 6 == 2) = (some (hd :: ds), d) → (d.half h).fery.rekey = some r →
      r.newKeys = some n → (d.half h).fery.keys = some k →
      Runs (.rekeySwitch h) s (((d.updFery h fun f => { f with
        keys := some { k with macRx := n.macRx, wrapRx := n.wrapRx }
        rxSeq := 0
        rekey := some { r with switchSeen := true } }).rekeyDone h).settleT)) ∧
    (281470681743360 ≤ (s.dev.half h).fery.txSeq → Runs (.rekeySequenceDue h) s (s.dev.loseTwin h (some 6)).settleT) ∧
    ((s.dev.half h).fery.txSeq < 281470681743360 → (s.dev.half h).fery.rekeyAt ≤ (s.dev.half h).fery.txSeq →
      Runs (.rekeySequenceDue h) s (s.dev.rekeyStart h).settleT) ∧
    ((s.dev.half h).fery.rekey.isSome = true → (s.dev.half h).fery.keys.isSome = true →
      Runs (.rekeyTimeout h) s (s.dev.updFery h fun f => { f with rekey := none, rekeyAt := (f.txSeq / 2 ^ 32 + 1) * 2 ^ 32 }).settleT)

/-- Set-up: an INITIAL whose chain does not verify fails the session with cause 3, one of the wrong identity with cause 4, one whose
signature or point is wrong with cause 5, and a right one gives the session's keys; an offer is answered by an offer and gives the new
keys, and one whose signature, point or epoch is wrong loses the twin with cause 5. -/
def Claim.SessionSetUp : Prop :=
  ∀ (h : Half) (m : List (BitVec 256)) (s : State) (d : Dev),
    (s.dev.feryNext h 0x0A (fun s => sf s 7 6 == 0) = some (m, d) → ∀ r, (d.half h).fery.rekey = some r →
      let b := dataBytes m.tail
      let n := chainSize (b.drop 165)
      let chain := ((b.drop 165).take n).map (BitVec.ofNat 8)
      let id := Config.certLeafKey chain
      let signed := ecdsaOk id (sha512 (rekeySigned 0 (b.take 133) ((b.drop 133).take 32))) ((b.drop (165 + n)).take 132)
      let up (k : SessKeys) : Dev := d.updFery h fun f => { f with
        keys := some k, rekey := none, epoch := 0, txSeq := 0, rxSeq := 0
        peerKey := some ((encPoint id).map (BitVec.ofNat 8)) }
      Runs (.rekeyInitial h) s (
        if Config.certOk chain = false ∨ 4096 < n then d.setupFail h 3
        else if d.peerHash h = 0 ∨ idHash id ≠ d.peerHash h then d.setupFail h 4
        else if signed = false then d.setupFail h 5
        else ((d.deriveKeys h r id (b.take 133) ((b.drop 133).take 32)).map fun k =>
          (up k).feryCtl h ((up k).heartbeat h)).getD (d.setupFail h 5)).settleT) ∧
    (∀ hd ds, s.dev.feryRecv h 0x0A (fun s => sf s 7 6 == 1) = (some (hd :: ds), d) →
      let e := d.rekeyStart h
      let b := dataBytes ds
      ∀ r pk id, (e.half h).fery.rekey = some r → (e.half h).fery.peerKey = some pk → decPoint (pk.map (·.toNat)) = some id →
        let signed := ecdsaOk id (sha512 (rekeySigned (sf hd 71 8) (b.take 133) ((b.drop 133).take 32))) ((b.drop 165).take 132)
        let up (k : SessKeys) : Dev := e.updFery h fun f => { f with rekey := some { r with peerSeen := true, newKeys := some k } }
        Runs (.rekeyOffer h) s (
          if signed = false ∨ sf hd 71 8 ≠ r.epoch then e.loseTwin h (some 5)
          else ((e.deriveKeys h r id (b.take 133) ((b.drop 133).take 32)).map fun k =>
            if ((up k).half h).fery.streams then up k else ((up k).updFery h ferySwitch).rekeyDone h).getD (e.loseTwin h (some 5))).settleT)

/-- A session comes up with `SESSION_UP` between ends whose settings fit; ends that differ in lanes, split, boundary or kind are
refused with cause 8 and `PAIR_MISMATCH`. -/
def Claim.SessionsPair : Prop :=
  ∀ (h : Half) (mode boundary split lanes : Nat) (single : Bool) (backed : Nat) (s : State),
    (s.dev.half h).fery.link = .up → (s.dev.half h).fery.keys.isSome = true → (s.dev.half h).fery.paired = true →
    (single ≠ s.dev.single → Runs (.sessionUp h mode boundary split lanes single backed) s (s.dev.setupFail h 8).settleT) ∧
    (s.dev.pairMode = 1 → mode = 2 → boundary = s.dev.fld h pgFERY 0x048 22 0 → split = s.dev.slotSplit →
      lanes = s.dev.fld h pgFERY 0x040 9 8 → single = s.dev.single → (s.dev.half h).tier.backed ≤ backed →
      let e := s.dev.updFery h fun f => { f with
        link := .session
        eff := { mode := 1, slotSplit := split, boundary, stageGib := s.dev.fld h pgFERY 0x04C 4 0, lanes }
        peerMode := 2, retryDue := false, handback := 0, stopTaking := false
        creditsDue := s.dev.fld h pgFERY 0x04C 4 0 * 16384, freed := 0 }
      let d := (((e.pump h).raise h pgFERY .sessionUp).genCompare h).resyncAll
      Runs (.sessionUp h mode boundary split lanes single backed) s (Dev.recallPump h (d.half h).fery.recallWait d).settleT)

/-- Lane training: every lane asked for brings the link up with `FERRY_UP` and starts set-up, a missing one leaves it to the retry,
and the retry trains again, or sets up again on trained lanes. -/
def Claim.FerryTraining : Prop :=
  ∀ (h : Half) (lanes : Nat) (s : State),
    (((s.dev.half h).fery.link = .training ∨ (s.dev.half h).fery.link = .retraining) → let c := s.dev.fld h pgFERY 0x040 9 8
      (lanes = lanesOf c → Runs (.ferryLaneTrainingDone h lanes) s ((((s.dev.updFery h fun f => { f.dropSession with
        link := .up, lanesUp := lanes, halfRate := decide (2 ≤ c), retryDue := false }).raise h pgFERY .ferryUp).rekeySend h 0 0).settleT)) ∧
      (lanes ≠ lanesOf c → Runs (.ferryLaneTrainingDone h lanes) s
        (s.dev.updFery h fun f => { f with link := .lost, lanesUp := min lanes 16, retryDue := true }).settleT)) ∧
    ((s.dev.half h).fery.retryDue = true → s.dev.fld h pgFERY 0x040 0 0 = 1 →
      ((s.dev.half h).fery.link = .up → Runs (.ferryRetryTimer h) s
        ((s.dev.updFery h fun f => { f with retryDue := false }).rekeySend h 0 0).settleT) ∧
      ((s.dev.half h).fery.link ≠ .up → Runs (.ferryRetryTimer h) s
        (s.dev.updFery h fun f => { f with link := .training, retryDue := false }).settleT))

/-- The `FERY` commands: PROMOTE, REKEY, RESYNC_START and RETRAIN act by `CMD_STATUS`, 1 while they run, 2 done, 3 refused by the
state and 4 for a generation too low; each is refused while another is BUSY. -/
def Claim.FerryCommands : Prop :=
  ∀ (org : Origin) (h : Half) (s : State), s.dev.takes org h pgFERY 0x0C8 = true →
    let d (op : Nat) := s.dev.entry org h pgFERY 0x0C8 op
    let busy (op : Nat) : Prop := (d op).fld h pgFERY 0x0CC 31 28 = 1
    let f (op : Nat) := ((d op).half h).fery
    (¬ busy 1 → Runs (.promote org h) s ((d 1).promoteCmd h).settleT) ∧
    ((d 1).pairMode = 1 → (d 1).promoteCmd h = (d 1).feryStatus h 3) ∧
    (¬ busy 2 → (f 2).link = .session → Runs (.feryRekey org h) s (((d 2).feryStatus h 1).rekeyStart h).settleT) ∧
    (¬ busy 2 → (f 2).link ≠ .session → Runs (.feryRekey org h) s ((d 2).feryStatus h 3).settleT) ∧
    (¬ busy 3 → (f 3).link = .session → (f 3).paired = true → (d 3).ownsRange h = true → (f 3).srcOn = false → (f 3).fenced = false →
      (f 3).genConflict = false → Runs (.resyncStart org h) s (((d 3).resyncStart h).feryStatus h 2).settleT) ∧
    (¬ busy 4 → (d 4).fld h pgFERY 0x040 0 0 = 1 →
      Runs (.feryRetrain org h) s (((d 4).updFery h fun f => { f with retraining := true }).feryStatus h 1).settleT) ∧
    (busy 4 → Runs (.feryRetrain org h) s (s.dev.refusal org h pgFERY 0x0C8 4).settleT) ∧
    ((s.dev.half h).fery.retraining = true →
      Runs (.feryRetrainAckWait h) s ((s.dev.loseTwin h (some 7)).feryStatus h 2).settleT)

/-! ### Flash (R223, R224, R228 to R235, R243, R247, R248, R250) -/

/-- A descriptor put on a ring that has room stands queued; a malformed one completes BAD_DESC (10) at once, a program that its open
stripe does not take completes with the check's status, and any other is left to its LUN's arbitration. -/
def Claim.FlashSubmissions : Prop :=
  ∀ (h : Half) (i ring : Nat) (desc : BitVec 512) (s : State), i < 4 → ring < 3 →
    ((s.dev.isle h i).ops.filter (·.ring == ring)).length < ringSize ring →
    let queues (c : Instr) (op : Nat) (sys : Bool) (img : TileImg) (bytes : List Byte) : Prop :=
      let n := descOf op desc
      let o := opOfDesc ring n img bytes
      let e := s.dev.updIsle h i fun x => { x with ops := x.ops ++ [o] }
      let ends (st : Nat) : Dev := (e.completeOp h i o st NandEnd.none).settleT
      (e.descBad h i n o sys = true → Runs c s (ends 10)) ∧
      (e.descBad h i n o sys = false → e.stripeBad h (nandStripe o.addr) = false → nandLun o.addr ∉ (e.half h).flash.failedLuns →
        (s.dev.isle h i).chans.getD (nandChan o.addr % 8) 0 ≠ 3 →
        if op = 2 ∨ op = 5 then
          (∀ st, e.programCheck h o = .inl st → Runs c s (ends st)) ∧
          (∀ d, e.programCheck h o = .inr d → Runs c s (d.serveLun h (nandLun o.addr)).settleT)
        else Runs c s (e.serveLun h (nandLun o.addr)).settleT)
    queues (.readTile h i ring desc) 1 false {} [] ∧
    (∀ t, queues (.programTile h i ring desc (some t)) 2 false t []) ∧
    (∀ sys, queues (.eraseBlock h i ring sys desc) 3 sys {} []) ∧
    queues (.readPageRaw h i ring desc) 4 false {} [] ∧
    (∀ b, queues (.programPageRaw h i ring desc b) 5 false {} ((b ++ List.replicate 18256 0).take 18256)) ∧
    queues (.setFeature h i ring desc) 6 false {} [] ∧ queues (.getParam h i ring desc) 7 false {} []

/-- The operation that a LUN runs ends: a program stores its tile or fails its stripe (6), an erase makes its stripe erased or marks
the block bad (7), SET_FEATURE sets its feature; it can be suspended for queued reads, time out (8), the third within 1 s failing the
LUN, or be reported overdue. -/
def Claim.FlashOperations : Prop :=
  ∀ (h : Half) (lun : Nat) (o : NandOp) (s : State), s.dev.runningOp h lun = some o →
    let d := s.dev
    let i := lunIsle lun
    let pg := pgFLSH i
    let ends (r : NandEnd) (e : Dev) (st : Nat) : Prop := Runs (.nandOperationDone h lun r) s
      (((e.completeOp h i o st { r with iter := 0, bits := 0, level := 0 }).serveLun h lun).settleT)
    (∀ r, o.op = 2 → r.fail = false → ends r (((d.wrap64 h pg 0x0E8).putNand h o.addr o.img).moveEnd h o) 0) ∧
    (∀ r, o.op = 2 → r.fail = true → ends r ((d.wrap64 h pg 0x0E8).programFail h o.addr (r.plane % 4)) 6) ∧
    (∀ r, o.op = 3 → o.oneBlock = false → r.fail = false → ends r ((d.wrap64 h pg 0x0F0).erased h (nandStripe o.addr) o.slc) 0) ∧
    (∀ r, o.op = 3 → o.oneBlock = false → r.fail = true → ends r ((d.wrap64 h pg 0x0F0).markBad h (nandStripe o.addr) (r.plane % 4)) 7) ∧
    (∀ r, o.op = 6 → ends r (d.updFlash h fun x => { x with features := smPut x.features (lun * 256 + o.feat) 0 o.fval }) 0) ∧
    (o.isRead = false → ((d.isle h i).ops.any fun q => nandLun q.addr == lun && q.isRead && !q.issued) = true →
      Runs (.nandSuspendDone h lun) s
        ((((d.updOps h i (· == o) fun o => { o with suspended := true, suspends := min (o.suspends + 1) 0xFFFF }).wrap64 h pg 0x0F8).serveLun h lun).settleT)) ∧
    (o.op ≠ 3 →
      let e := (((d.completeOp h i o 8 NandEnd.none).sat h pg 0x104).raise h pg .flashTimeout)
      let f := e.updFlash h fun x => { x with
        timeouts := (lun, e.uptime) :: x.timeouts.filter fun t => decide (e.uptime < t.2 + 1000000000) }
      let n := ((f.half h).flash.timeouts.filter fun t => t.1 == lun).length
      (n < 3 → Runs (.flashTimeout h lun) s (f.serveLun h lun).settleT) ∧
      (3 ≤ n → Runs (.flashTimeout h lun) s (f.lunFail h lun true).settleT)) ∧
    (∀ q, ((d.isle h i).ops.find? fun o => nandLun o.addr == lun && o.issued && o.op == 3 && !o.overdue) = some q →
      Runs (.eraseOverdue h lun) s
        ((d.updOps h i (· == q) fun o => { o with overdue := true }).raise h pg .eraseOverdue q.addr q.suspends))

/-- A channel that is UP retrains, and training ends with it UP or FAILED with its LUNs. -/
def Claim.FlashChannels : Prop :=
  ∀ (h : Half) (c : Nat) (s : State),
    (s.dev.chanState h c = 2 → Runs (.flashChannelRetrain h c) s (s.dev.setChan h c 1)) ∧
    (s.dev.chanState h c = 1 →
      (∀ k, Runs (.flashChannelTrainDone h c true k) s
        (((s.dev.lunsOf h c).foldl (fun d l => d.serveLun h l) (s.dev.setChan h c 2)).settleT)) ∧
      (∀ k, k < 2 → let e := (s.dev.setChan h c 3).raise h (pgFLSH (c / 8)) .channelFailed c k
        Runs (.flashChannelTrainDone h c false k) s (((e.lunsOf h c).foldl (fun d l => d.lunFail h l false) e).settleT)))

/-- `FORMAT` of a half none of whose tiles an LD owns wipes it and starts, is refused while one runs, and its end records the
geometry, fixes the backed count and shows 100%. -/
def Claim.Formatting : Prop :=
  ∀ (h : Half) (s : State),
    (∀ org, s.dev.takes org h (pgFLSH 0) 0x078 = true →
      let e := s.dev.entry org h (pgFLSH 0) 0x078 1
      ((e.half h).flash.formatting = false → (e.half h).flash.formatted = false → Runs (.format org h) s
        ((((((e.wipeHalf h).updFlash h fun x => { x with formatting := true }).setReg h (pgFLSH 0) 0x07C (2 ^ 28)).lfNote h).dirtyNote h).settleT)) ∧
      ((e.half h).flash.formatting = true → Runs (.format org h) s (Dev.flshNo h 1 (s.dev.refusal org h (pgFLSH 0) 0x078 1)).settleT)) ∧
    (∀ pages stripes bits luns bad, (s.dev.half h).flash.formatting = true →
      ∃ e : Dev, Runs (.formatDone h pages stripes bits luns bad) s (e.lfNote h).settleT ∧
        (e.half h).flash.formatted = true ∧ (e.half h).flash.formatting = false ∧ (e.half h).flash.pages = pages ∧
        (e.half h).tier.rawTiles = (e.half h).flash.luns.length * (min stripes 4095) * pages)

/-- GO in the diagnostic slot submits the descriptor of `DIAG_DESC` and makes the slot busy; a busy slot refuses and keeps its
status. -/
def Claim.DiagnosticSlot : Prop :=
  ∀ (org : Origin) (h : Half) (i : Nat) (s : State), i < 4 → s.dev.takes org h (pgFLSH i) 0x0C0 = true →
    let v := 2 ^ 31 + s.dev.fld h (pgFLSH i) 0x0C0 3 0
    let e := s.dev.entry org h (pgFLSH i) 0x0C0 v
    let n := (List.range 16).foldl (fun n j => n + (e.reg h (pgFLSH i) (0x080 + 4 * j)).toNat * 2 ^ (32 * j)) 0
    ((e.isle h i).diagBusy = false → n % 256 = 4 ∨ n % 256 = 7 →
      let d := (e.updIsle h i fun x => { x with diagBusy := true }).setFld h (pgFLSH i) 0x0C0 5 4 1
      Runs (.diagGo org h i) s ((d.submit h i 3 n false {}
        ((smGetD (d.isle h i).rawPages (bitsOf n 79 72) [] ++ List.replicate 18256 0).take 18256)).settleT)) ∧
    ((e.isle h i).diagBusy = true → Runs (.diagGo org h i) s
      ((Dev.diagNo h i (s.dev.refusal org h (pgFLSH i) 0x0C0 v)).settleT))

/-! ### Key slots (R257 to R260, R271 to R276, R280) -/

/-- A key command that R257 to R280 refuse is journaled REFUSED and shows why; one that they allow has its effect: ESTABLISH keeps the
origin's transport key, LOAD, GENERATE, SWEEP, ERASE and RETIRE become the running command, and SELECT, which is not journaled,
selects a slot. -/
def Claim.KeyCommands : Prop :=
  ∀ (org : Origin) (h : Half) (slot : Nat) (ph : Bool) (s : State),
    let n := slot % 1024
    let v (op : Nat) (p : Bool) : Nat := op + n * 16 + bnum p * 2 ^ 14
    let e (op : Nat) (p : Bool) : Dev := s.dev.entry org h pgKEYS 0x040 (v op p)
    let may (op : Nat) (p : Bool) : Prop := (e op p).keysJudge org h (v op p) = 0
    let c (op : Nat) (p : Bool) (ks : List (BitVec 256)) : KeyCmd := { org := org, half := h, op := op, slot := n, phase := p, keys := ks }
    (s.dev.takes org h pgKEYS 0x040 = true →
      (∀ key, (s.dev.entry org h pgKEYS 0x040 1).keysJudge org h 1 = 0 → (s.dev.entry org h pgKEYS 0x040 1).transportOf org h = some key →
        let d := s.dev.entry org h pgKEYS 0x040 1
        Runs (.establish org h) s (({ d with keys := { d.keys with
          status := 2
          transports := { org := org, key := key } :: d.keys.transports.filter fun t => !(t.org == org) } } : Dev).raise h pgKEYS .keysCmdDone 0)) ∧
      (∀ ks, may 2 ph → (e 2 ph).unwrapBlob org h n ph = some ks → Runs (.keyLoad org h slot ph) s ((e 2 ph).keysBegin (c 2 ph ks))) ∧
      (may 3 ph →
        let a := (e 3 ph).freshKey
        let b := a.2.freshKey
        let m := b.2.freshKey
        Runs (.keyGenerate org h slot ph) s (
          if a.1 = b.1 then ({ m.2 with keys := { m.2.keys with status := 11 } } : Dev).raise h pgKEYS .keysCmdDone n
          else m.2.keysBegin (c 3 ph [a.1, b.1, m.1]))) ∧
      (may 4 false → Runs (.keySweep org h slot) s ((e 4 false).keysBegin (c 4 false []))) ∧
      (may 5 false → Runs (.keyErase org h slot) s ((e 5 false).keysCut.keysBegin (c 5 false []))) ∧
      (may 6 false → Runs (.keyRetire org h slot) s ((e 6 false).keysCut.keysBegin (c 6 false []))) ∧
      (¬ may 2 ph → Runs (.keyLoad org h slot ph) s (Dev.keysNo org h (v 2 ph) (s.dev.refusal org h pgKEYS 0x040 (v 2 ph)))) ∧
      (¬ may 5 false → Runs (.keyErase org h slot) s (Dev.keysNo org h (v 5 false) (s.dev.refusal org h pgKEYS 0x040 (v 5 false))))) ∧
    (s.dev.takes org h pgKEYS 0x040 false = true →
      let d := s.dev.wake h (pageIsland pgKEYS)
      d.keys.cmd = none → Runs (.keySelect org h slot) s
        (({ d with keys := { d.keys with selected := n, status := 2 } } : Dev).raise h pgKEYS .keysCmdDone n))

/-- A deferred load goes on when no earlier request on its slot and phase is left; the record overwrite of an erase zeroises the
slot's keys in the halves where it is ERASING. -/
def Claim.KeyLoadsAndErasures : Prop :=
  (∀ (s : State) (c : KeyCmd), s.dev.keys.cmd = some c → c.deferred = true → (∀ h, (s.dev.half h).ciph.queue = []) →
    Runs .loadDeferredApply s (s.dev.updKeyCmd fun c => { c with deferred := false }).keysExchange) ∧
  (∀ (slot : Nat) (s : State), let n := slot % 1024
    s.dev.single = false → (∀ h, (s.dev.kslot h n).state = .erasing) → (∀ h, (s.dev.half h).ciph.queue = []) → s.dev.keys.cmd = none →
    ∃ d : Dev, Runs (.keyEraseRecordDone slot) s d ∧ ∀ h,
      (d.kslot h n).k1a = 0 ∧ (d.kslot h n).k2a = 0 ∧ (d.kslot h n).k1b = 0 ∧ (d.kslot h n).k2b = 0 ∧ (d.kslot h n).cmac = 0 ∧
      (d.kslot h n).owner = none ∧ smGet (d.half h).ciph.records (n * 2) = none ∧ smGet (d.half h).ciph.records (n * 2 + 1) = none ∧
      ((s.dev.kslot .west n).gen ≠ 0xFFFFFFFF → (d.kslot h n).state = .empty ∧ (d.kslot h n).walking = true ∧
        (d.kslot h n).gen = (s.dev.kslot h n).gen + 1) ∧
      ((s.dev.kslot .west n).gen = 0xFFFFFFFF → (d.kslot h n).state = .retired))

/-- The walk of an erased slot ends in a half when every tile that named the slot is LOST; the walk of a sweep treats the next tile
under the old phase, and a sweep whose walks have ended and that left none ends. -/
def Claim.KeyWalks : Prop :=
  (∀ (h : Half) (slot : Nat) (s : State), let n := slot % 1024
    (s.dev.kslot h n).walking = true → let e := s.dev.eraseWalk h n
    (e.walkLeft h n = true → Runs (.walkDone h slot) s e.settle) ∧
    (e.walkLeft h n = false → Runs (.walkDone h slot) s
      (((e.updSlot h n fun k => { k with walking := false }).raise h pgKEYS .walkDone n).settle))) ∧
  (∀ (h : Half) (s : State) (w : Sweep), s.dev.keys.sweep = some w →
    let d := s.dev
    let ts := (d.tilesOfSlot h w.slot).filter fun t => d.oldPhase h w.slot t
    let moved (t : Nat) (done : Bool) : Dev := { d with keys := { d.keys with sweep := some (w.move h t done) } }
    (ts = [] → Runs (.sweepWalkTile h) s (moved (w.cursor h) true).settle) ∧
    (∀ t, (ts.filter fun t => d.sweepable h t).find? (fun t => decide (w.cursor h ≤ t)) = some t →
      (d.tile h t).state = .dramDirty →
      Runs (.sweepWalkTile h) s ((moved (max (w.cursor h) (t + 1)) false).sweepTile h t).settle)) ∧
  (∀ (s : State) (w : Sweep), s.dev.keys.sweep = some w → s.dev.split = false → w.doneW = true → (w.doneE = true ∨ s.dev.single = true) →
    (∀ h, ∀ t ∈ s.dev.tilesOfSlot h w.slot, s.dev.oldPhase h w.slot t = false) →
    Runs .sweepDone s
      ((({ s.dev with keys := { s.dev.keys with sweep := none } } : Dev).slotBoth w.slot fun k => { k with state := .active }).keysRaise
        .sweepDone w.slot))

/-! ### The cipher engine (R265 to R270) -/

/-- A request is queued and arbitrated while its class has an entry; one that breaks a rule of R266 or R267 completes BAD_REQ (4) at
once. -/
def Claim.CipherRequests : Prop :=
  ∀ (h : Half) (org : Origin) (req : BitVec 512) (src : List Byte) (s : State),
    let queues (c : Instr) (op : Nat) : Prop :=
      let q : CiphReq := { id := (s.dev.half h).ciph.nextId, bits := BitVec.ofNat 512 (req.toNat / 256 * 256 + op), src := src, org := org
                           queuedAt := s.dev.uptime }
      let e := s.dev.upd h fun x => { x with ciph := { x.ciph with nextId := x.ciph.nextId + 1 } }
      (q.bad = true → Runs c s (e.ciphDone h q 4 0 [])) ∧
      (q.bad = false → (s.dev.half h).ciph.waiting = [] → (s.dev.half h).ciph.room q = true →
        Runs c s ((e.upd h fun x => { x with ciph := { x.ciph with queue := x.ciph.queue ++ [q] } }).ciphServe h))
    queues (.xtsEnc h org req src) 1 ∧ queues (.xtsDec h org req src) 2 ∧ queues (.cmacGen h org req src) 3 ∧
    queues (.cmacVerify h org req src) 4 ∧ queues (.tileSeal h org req src) 5 ∧ queues (.tileOpen h org req src) 6 ∧
    queues (.tileVerify h org req src) 7 ∧ queues (.wrap h org req src) 8 ∧ queues (.unwrap h org req src) 9

/-- The request that a core runs completes with its result; a tile whose CMAC differs completes with status 1, no byte of DST and
`CMAC_MISMATCH`; the oldest request that has waited 1 ms is served as a high one, and a failed core leaves service. -/
def Claim.CipherEngine : Prop :=
  ∀ (h : Half) (s : State),
    let d := s.dev
    (∀ core t q, (d.half h).ciph.running core = some q →
      (Runs (.cipherRequestDone h core t) s
        ((d.ciphDone h q (d.ciphRun h q).1 t ((d.ciphRun h q).2.map (BitVec.ofNat 8))).ciphServe h)) ∧
      (q.f 7 0 = 6 → (cmac (d.kslot h (q.f 35 26)).cmac.toNat (q.trailer.take 240 ++ q.bytes.take 65536) ≠ q.trailer.drop 240) →
        Runs (.cipherRequestDone h core t) s ((d.ciphDone h q 1 t []).ciphServe h))) ∧
    (∀ q, ((d.half h).ciph.queue ++ (d.half h).ciph.waiting).find? (fun q => !q.aged && q.core.isNone && decide (1 < q.f 17 16)) = some q →
      let old (l : List CiphReq) : List CiphReq := l.map fun r => if r.id = q.id then { r with aged := true } else r
      Runs (.cipherAgeing h) s
        ((d.upd h fun x => { x with ciph := { x.ciph with queue := old x.ciph.queue, waiting := old x.ciph.waiting } }).ciphServe h)) ∧
    (∀ core, core < 4 → (d.half h).ciph.coreFailed.getLsbD core = false → ((d.half h).ciph.queue.filter fun q => q.core == some core) = [] →
      Runs (.coreFailed h core) s ((((d.upd h fun x => { x with ciph := { x.ciph with
        coreFailed := x.ciph.coreFailed ||| BitVec.twoPow 4 core } }).raise h pgCIPH .coreFailed core).ciphServe h)))

/-! ### Fuses and boot (R282, R283, R288 to R293, R297, R298) -/

/-- An OTP command that R293 or R297 refuses changes no fuse; one that is allowed programs its bits in both rows, leaves every
write-once field, and shows DONE (2); a pulse that does not take ends it FAILED (5) with the pulses before it made. -/
def Obligations.OtpCommands : Prop :=
  ∀ (org : Origin) (h : Half) (arg : Nat) (s : State), arg < 256 → s.dev.otpc = none → s.dev.takes org h pgOTPC 0x058 = true →
    let e (op : Nat) : Dev := s.dev.entry org h pgOTPC 0x058 (arg * 256 + op)
    let may (op : Nat) : Prop := (e op).otpcJudge (s.otp.get h) h op arg = 0
    let runs (c : Option Nat → Instr) (op : Nat) (done : OtpRow → Prop) : Prop :=
      let on : Dev := { (e op).otpcStatus 1 with otpc := none }
      let pulses := on.halves.flatMap fun k => otpPulses k (on.otpcBits h op arg)
      (may op → ∃ t, exec (c none) s = .next t ∧ t.pending = s.pending ∧ t.dev = (on.otpcStatus 2).raise h pgOTPC .otpcCmdDone ∧
        (∀ k ∈ s.dev.halves, done (t.otp.get k) ∧ (t.otp.get k).onceBytes = (s.otp.get k).onceBytes ∧
          (t.otp.get k).repair = (s.otp.get k).repair)) ∧
      (may op → ∀ j, j < pulses.length → exec (c (some j)) s = .next { s with
        otp := (pulses.take j).foldl otpPulse s.otp
        dev := (on.otpcStatus 5).raise h pgOTPC .otpcCmdDone }) ∧
      (¬ may op → ∀ f, Runs (c f) s (Dev.otpcNo s.otp h (arg * 256 + op) (s.dev.refusal org h pgOTPC 0x058 (arg * 256 + op))))
    runs (.svnAdvance org h arg) 1 (fun o => arg ≤ o.svnOf) ∧
    runs (.revokeSigner org h arg) 2 (fun o => o.revoke.vote.getLsbD arg = true) ∧
    runs (.lcAdvance org h arg) 3 (fun o => o.lifecycle.vote.toNat &&& lifePattern arg = lifePattern arg) ∧
    runs (.lockStrap org h arg) 4 (fun o => o.strapLock.vote.getLsbD arg = true)

/-- `MEAS_SEL` shows one of the six measurements in `MEAS_DATA` and refuses any other index. -/
def Claim.MeasurementSelector : Prop :=
  ∀ (org : Origin) (h : Half) (i : Nat) (s : State), i < 8 → s.dev.takes org h pgBOOT 0x050 false = true →
    let d := s.dev.wake h (pageIsland pgBOOT)
    ((1 ≤ i ∧ i ≤ 6) → Runs (.bootMeasSel org h i) s (d.setWords h pgBOOT 0x060 16 (((d.half h).boot.meas.getD (i - 1) 0).toNat))) ∧
    ((i = 0 ∨ i = 7) → Runs (.bootMeasSel org h i) s d)

/-- The ROM of a device with one half runs the image that R288 chooses, and halts on a bad row (1), a lifecycle that does not run (3)
or no image (4); where the rows of two halves agree East checks West's image and
runs it, or halts (5). -/
def Claim.RomBoots : Prop :=
  ∀ (us : Nat) (s : State),
    let start (h : Half) : Dev := s.dev.upd h fun x => { x with
      pwr := { x.pwr with inReset := 0x17FFFF }
      boot := { x.boot with halt := 0, life := (s.otp.get h).life } }
    (∀ h, s.dev.romMay h = false → Runs (.romBoot h us) s s.dev) ∧
    (∀ h, s.dev.romMay h = true → (s.otp.get h).crcOk = false → Runs (.romBoot h us) s ((start h).romHalt h 1)) ∧
    (s.dev.romMay .west = true → s.dev.single = true → s.otp.west.crcOk = true →
      ((s.otp.west.life = 0 ∨ s.otp.west.life = 4) → Runs (.romBoot .west us) s ((start .west).romHalt .west 3)) ∧
      (s.otp.west.life ≠ 0 → s.otp.west.life ≠ 4 → bitsOf s.dev.west.strap.eff.toNat 1 0 ≠ 3 →
        let r := chooseSlot s.otp.west s.dev.flash.slotA s.dev.flash.slotB
        let e := (start .west).slotFails r.1 r.2.1
        Runs (.romBoot .west us) s ((r.2.2.map fun x => e.fwStart .west s.otp x.2 x.1 (r.2.1 * 16 + r.1) us false).getD
          ((e.setReg .west pgBOOT 0x040 (r.2.1 * 4096 + r.1 * 256)).romHalt .west 4)))) ∧
    (s.dev.romMay .east = true → s.dev.single = false → s.dev.fordUp .east = true → s.otp.east.crcOk = true →
      s.otp.west.sameOnce s.otp.east = true → otpExchange s.otp = s.otp → s.otp.east.life ≠ 0 → s.otp.east.life ≠ 4 →
      ∀ img, s.dev.west.boot.image = some img →
        let w := s.dev.west.boot
        let c := img.check s.otp.east
        Runs (.romBoot .east us) s (
          if c = 0 then (start .east).fwStart .east s.otp img w.slot (if w.slot = 0 then 7 * 16 else 7) us w.recovery
          else ((((start .east).raise .east pgBOOT .bootSlotFail).setReg .east pgBOOT 0x040
            (if w.slot = 0 then 7 * 4096 + c * 256 else c * 4096 + 7 * 256)).romHalt .east 5).upd .east fun x =>
              { x with mgmt := { x.mgmt with lost := true } }))

/-- A recovery image that passes R288 runs in a half that waits for one; `TRANSFER_FW` writes the slot that did not boot, leaves it
invalid where the body is wrong, and as it was where the header is; `ACTIVATE_FW` answers. -/
def Claim.FirmwareUpdates : Prop :=
  ∀ (s : State),
    let d := s.dev
    let w := d.west.boot
    (∀ img us, w.halt = 4 → d.single = true → d.east.boot.halt ≠ 4 →
      ∃ st, Runs (.recoveryBoot img us) s (if img.check s.otp.west = 0 then d.fwStart .west s.otp img w.slot st us true else d)) ∧
    (∀ img us, w.halt ≠ 4 → Runs (.recoveryBoot img us) s d) ∧
    (∀ img, w.running = true → bitsOf d.west.strap.eff.toNat 1 0 ≠ 3 →
      let put (x : Image) : Dev := { d with flash :=
        if w.slot = 0 ∧ w.recovery = false then { d.flash with slotB := some x } else { d.flash with slotA := some x } }
      Runs (.transferFw img) s (
        if img.check14 s.otp.west ≠ 0 ∨ img.check5 ≠ 0 then d.emit (.fmResponse 0x0201 0xA [])
        else if img.check6 ≠ 0 then (put { img with header := [] }).emit (.fmResponse 0x0201 0xA [])
        else (put img).emit (.fmResponse 0x0201 0 []))) ∧
    (w.running = true → Runs (.activateFw false) s (d.emit (.fmResponse 0x0202 0 [])) ∧
      Runs (.activateFw true) s (d.emit (.fmResponse 0x0202 mbUnsupported [])))

/-! ### SPDM (R295, R296) -/

/-- Opening requests of a requester with a state: version 1.2 resets it, the capabilities follow the version, and the one suite
follows the capabilities where the requester offers it; each out of its order is UnexpectedRequest (4). A state idle for 60 s goes. -/
def Claim.SpdmOpening : Prop :=
  ∀ (r : Nat) (s : State) (x : Spdm), s.dev.spdmOf r = some x →
    (((s.dev.half (s.dev.spdmHalf r)).boot.running && !(s.dev.mgmtLost (s.dev.spdmHalf r))) || s.dev.served (s.dev.spdmHalf r)) = true →
    let d := s.dev.updSpdm r fun x => { x with lastUse := s.dev.uptime }
    Runs (.getVersion r) s
      ((d.updSpdm r fun x => { requester := r, versioned := true, lastUse := x.lastUse }).spdmSend r 0x04 [0, 1, 0x00, 0x12]) ∧
    (x.versioned = true → Runs (.getCapabilities r) s
      ((d.updSpdm r fun x => { x with caps := true }).spdmSend r 0x61 (leBytes 4 (2 + 4 + 16 + 2 ^ 17 + 2 ^ 19)))) ∧
    (x.versioned = false → Runs (.getCapabilities r) s (d.spdmError r 4)) ∧
    (∀ asym hash, x.caps = true →
      (asym.testBit 8 = true → hash.testBit 2 = true → Runs (.negotiateAlgorithms r asym hash) s
        ((d.updSpdm r fun x => { x with algs := true }).spdmSend r 0x63 (1 :: leBytes 4 8 ++ leBytes 4 256 ++ leBytes 4 4))) ∧
      (asym.testBit 8 = false → Runs (.negotiateAlgorithms r asym hash) s (d.spdmError r 1))) ∧
    Runs (.spdmUnsupportedRequest r) s (d.spdmError r 7) ∧
    Runs (.spdmStateTimeout r) s (s.dev.spdmDrop fun q => q == r)

/-- Requests after negotiation: digests and parts of the chains, a signed challenge and signed measurements, `SET_CERTIFICATE` of the
operator's chain in PRODUCTION with the identity key, chunks of large messages; before negotiation each is UnexpectedRequest. -/
def Claim.SpdmSessions : Prop :=
  ∀ (r : Nat) (s : State) (x : Spdm), s.dev.spdmOf r = some x →
    (((s.dev.half (s.dev.spdmHalf r)).boot.running && !(s.dev.mgmtLost (s.dev.spdmHalf r))) || s.dev.served (s.dev.spdmHalf r)) = true →
    let h := s.dev.spdmHalf r
    let d := s.dev.updSpdm r fun x => { x with lastUse := s.dev.uptime }
    (x.algs = false → Runs (.getDigests r) s (d.spdmError r 4)) ∧
    (x.algs = true →
      (let cs := [0, 1].filterMap fun k => (d.chain h k).map fun c => (k, c)
       Runs (.getDigests r) s (d.spdmSend r 0x01 (BitVec.ofNat 8 (cs.map fun c => 2 ^ c.1).sum :: cs.flatMap fun c => chainDigest c.2))) ∧
      (∀ slot off len c, d.chain h slot = some c → off < c.length →
        let p := (c.drop off).take len
        Runs (.getCertificate r slot off len) s
          (d.spdmSend r 0x02 (BitVec.ofNat 8 slot :: leBytes 2 p.length ++ leBytes 2 (c.length - off - p.length) ++ p))) ∧
      (∀ slot off len, d.chain h slot = none → Runs (.getCertificate r slot off len) s (d.spdmError r 1)) ∧
      (∀ slot c, d.chain h slot = some c → ∃ e : Dev, ∃ n g, Runs (.challenge r slot false) s
        (e.spdmSend r 0x03 (chainDigest c ++ leBytes 32 n ++ [0, 0] ++ g)) ∧ g.length = 132 ∧ e.west = d.west ∧ e.east = d.east) ∧
      (∀ i, 1 ≤ i → i ≤ 6 → ∃ e : Dev, ∃ n, Runs (.getMeasurements r i false) s
        (e.spdmSend r 0x60 (1 :: leBytes 3 71 ++ d.measBlock h i ++ leBytes 32 n ++ [0, 0])) ∧ e.west = d.west ∧ e.east = d.east) ∧
      (∀ chain, let key := ecPub (((d.half h).boot.keys.map (·.identity)).getD 1)
        Runs (.setCertificate r 1 chain) s (
          if (s.otp.get h).life = 2 ∧ chain.length ≤ 0x8000 ∧ Config.certOk chain = true ∧ Config.certLeafKey chain = key then
            ({ d with flash := { d.flash with cert1 := chain } } : Dev).spdmSend r 0x6E [1]
          else d.spdmError r 1)) ∧
      (∀ slot chain, slot ≠ 1 → Runs (.setCertificate r slot chain) s (d.spdmError r 1)) ∧
      (∀ b, ∃ y, d.spdmOf r = some y ∧ Runs (.chunkSend r false b) s
        ((d.updSpdm r fun x => { x with chunkIn := y.chunkIn ++ b }).spdmSend r 0x05 [])) ∧
      (∀ y, d.spdmOf r = some y → y.chunkOut ≠ [] → Runs (.chunkGet r) s
        ((d.updSpdm r fun x => { x with chunkOut := x.chunkOut.drop 1000 }).spdmSend r 0x06
          (BitVec.ofNat 8 (bnum (decide (y.chunkOut.length ≤ 1000))) :: y.chunkOut.take 1000))))

/-! ### Power (R299 to R327) -/

/-- PWRFAIL_N: a fall starts the ride-through while the supplies are up, a return within it is a glitch, and its expiry triggers Last
Ferry with cause 0; input power can return outside it. -/
def Claim.PowerFailure : Prop :=
  ∀ (s : State),
    let d := s.dev
    let up := [SupvSeq.up, .holdRelease, .on].contains d.supv.seq
    Runs .pwrfailNFall s (d.eachPwr fun p => if p.state = .moored then p else { p with
      pwrfailLow := true
      rideThrough := up
      inputBack := false }) ∧
    ((∀ h ∈ d.halves, (d.half h).pwr.rideThrough = true) → ∃ e : Dev, Runs .pwrfailGlitch s e ∧ ∀ h ∈ d.halves,
      (e.half h).pwr.rideThrough = false ∧ (e.half h).pwr.pwrfailLow = false ∧ (e.half h).pwr.inputBack = true) ∧
    (d.halves.filter (fun h => (d.half h).pwr.rideThrough && (d.half h).pwr.pwrfailLow) ≠ [] →
      Runs .rideThroughExpiry s (((d.eachPwr fun p => { p with rideThrough := false }).trigger 0
        (d.halves.filter fun h => (d.half h).pwr.rideThrough && (d.half h).pwr.pwrfailLow)).settleT)) ∧
    ((∀ h ∈ d.halves, (d.half h).pwr.rideThrough = false) → Runs .inputPowerReturn s (d.eachPwr fun p => { p with
      pwrfailLow := false
      inputBack := true }))

/-- `POWER_DOWN` and `POWER_OFF` trigger Last Ferry with causes 4 and 5 in the halves that go together, and are refused while it
runs there. -/
def Claim.PowerCommands : Prop :=
  ∀ (org : Origin) (h : Half) (s : State), s.dev.takes org h pgPWRS 0x04C = true →
    let d (v : Nat) := s.dev.entry org h pgPWRS 0x04C v
    let running (v : Nat) : Bool := ((d v).together h).any fun k => (d v).inLf k
    (running 1 = false → Runs (.powerDown org h) s (((d 1).trigger 4 ((d 1).together h)).settleT)) ∧
    (running 2 = false → Runs (.powerOff org h) s (((d 2).trigger 5 ((d 2).together h)).settleT)) ∧
    (running 1 = true → Runs (.powerDown org h) s ((s.dev.refusal org h pgPWRS 0x04C 1).settleT))

/-- Last Ferry's steps 3 and 4: the flush leaves no dirty Landing line outside DARK tiles and no buffered write of one, and the push
counts what credit kept back; step 5 follows both. -/
def Claim.LastFerryDrains : Prop :=
  ∀ (h : Half) (s : State), (s.dev.half h).pwr.state = .lastFerry → (s.dev.half h).pwr.lfStep = 3 →
    let d := s.dev
    let e := d.landFlush h fun _ => true
    let ts := (((e.half h).land.buf.map fun b => lineTile b.line).filter fun t => (e.tile h t).state != .dark).dedup
    ((d.half h).pwr.flushed = false → Runs (.lfFlushDone h) s
      (((ts.foldl (fun d t => d.bufIssueTile h t) e).upd h fun x => { x with pwr := { x.pwr with flushed := true } }).lfFive h)) ∧
    ((d.half h).pwr.pushed = false → ∃ e : Dev, Runs (.lfPushEnd h) s e ∧ (e.half h).pwr.pushed = true ∧
      (e.half h).pwr.lf.unsent = lsum ((d.half h).fery.stream.map StreamMsg.lineCount) ∧ (e.half h).fery.link = .off ∧
      (e.half h).pwr.lfStep = (if (d.half h).pwr.flushed then 5 else 3))

/-- Last Ferry's steps 5 and 6: the evacuation ends in step 6 with the islands of its step off, and the record written then stands
where it is complete and a copy was written; the half goes on to step 7. -/
def Claim.LastFerryRecords : Prop :=
  ∀ (h : Half) (s : State), (s.dev.half h).pwr.state = .lastFerry →
    (∀ fails, (s.dev.half h).pwr.lfStep = 5 → ∃ e : Dev, Runs (.lfEvacuateDone h fails) s e ∧ (e.half h).pwr.lfStep = 6 ∧
      ∀ i ∈ [0, 1, 2, 3, 14], (e.half h).pwr.gated.getLsbD i = true) ∧
    (∀ copies us, (s.dev.half h).pwr.lfStep = 6 → ∃ e : Dev, Runs (.voyageRecordWritten h copies us) s (e.lfJoin h).settleT ∧
      (e.half h).pwr.lfStep = 7 ∧
      ((s.dev.half h).pwr.lf.complete = true → 0 < copies → ∃ v, (e.half h).pwr.record = some v ∧ v.complete = true ∧
        v.durationUs = us ∧ v.lastAccepted = (s.dev.half h).pwr.lf.lastAccepted ∧ v.flags.getLsbD 0 = true ∧
        v.flags.getLsbD 4 = ((s.dev.half h).pwr.lf.flags.getLsbD 4 || e.warmOk h)) ∧
      (((s.dev.half h).pwr.lf.complete = false ∨ copies = 0) → (e.half h).pwr.record = (s.dev.half h).pwr.record))

/-- An armed alarm brings a moored device up as cause 2, moves the clocks to its tick and clears ARMED; one that is not armed does
nothing. -/
def Claim.AlarmWakes : Prop :=
  ∀ (s : State), s.dev.supv.g0 = true → s.dev.split = false →
    let v := s.dev.reg64 .west pgPWRS 0x058
    (v < 2 ^ 63 → ∀ h, Runs (.rtcAlarm h) s s.dev) ∧
    (2 ^ 63 ≤ v → s.dev.supv.seq = .moored → s.dev.supv.tripped = false → ∀ h ∈ s.dev.halves,
      let ns := (v % 2 ^ 63 * 1000000000 + 32767) / 32768 - s.dev.uptime
      ∃ d : Dev, Runs (.rtcAlarm h) s d ∧ d.uptime = s.dev.uptime + ns ∧ d.time = s.dev.time + ns ∧ d.supv.seq = .up ∧
        d.supv.step = 1 ∧ d.reg64 .west pgPWRS 0x058 = v % 2 ^ 63 ∧ ∀ k ∈ d.halves, (d.half k).pwr.wakeCause = 2)

/-- A start without a record or mooring list replays the chart, trains DRAM, tests it and builds its frames; a half with too little
DRAM stays UNDERSIZED, and one with enough loads its Manifest and keys and opens its service. -/
def Claim.ColdStarts : Prop :=
  ∀ (h : Half) (e : ColdEnv) (s : State),
    (s.dev.coldMay h = false → Runs (.coldStart h e) s s.dev.settleT) ∧
    (s.dev.coldMay h = true → (s.dev.half h).pwr.record = none → (s.dev.half h).pwr.waking = false →
      let d := s.dev.nandCold h []
      let d := if (s.dev.half h).flash.formatted then d.replay h (s.dev.half h).ctl.chart else d
      let d := ((((d.replayActs h).trainDram h e).selfTest h e).coldFrames h)
      (d.dramFrames h < d.leastFrames h → Runs (.coldStart h e) s
        ((((d.upd h fun x => { x with
          pwr := { x.pwr with started := true, waking := false }
          tier := { x.tier with undersized := true }
          sail := { x.sail with current := d.topSailing h 0, sealed := d.topSailing h 0 } }).raise h pgMANF .manfUndersized).firstSailing.note).settleT)) ∧
      (d.leastFrames h ≤ d.dramFrames h → Runs (.coldStart h e) s
        ((((d.startManf h e none false false).keysBack h).openHalf h none false).settleT)))

/-- Re-arming a half that has no evacuated tile left erases the reserve and ends; idle subchannels in self-refresh gate their DDR
island. -/
def Claim.RearmingAndIdleGates : Prop :=
  ∀ (h : Half) (s : State),
    ((s.dev.half h).pwr.rearm = true → (∀ e ∈ (s.dev.half h).tier.manf, e.2.nand.toNat ≠ noNand → e.2.state ≠ .blank →
        (s.dev.stripe h (nandStripe e.2.nand.toNat)).use ≠ 3) →
      let d := ((s.dev.reserveStripes h).map (·.1)).foldl (Dev.rearmErase h) s.dev
      Runs (.rearmDone h) s (((((d.upd h fun x => { x with pwr := { x.pwr with
        rearm := false
        rearmLeft := 0 } }).lfNote h).raise h pgPWRS .rearmDone)).settleT)) ∧
    (∀ i, 4 ≤ i → i ≤ 9 → s.dev.fld h pgPWRS 0x040 15 8 ≠ 0 → (∀ k, k < 4 → (s.dev.sub h ((i - 4) * 4 + k)).state = .selfRefresh) →
      Runs (.ddrIdleGate h i) s (s.dev.setGates h ((s.dev.half h).pwr.gated ||| BitVec.twoPow 22 i)))

/-- The end of a promotion: in every half that promotes with no verified sailing left, the generation is recorded, MODE becomes 1 and
the receiver ends, and then the device opens its sailings above every one it has met. -/
def Obligations.PromotionsOfTheTwin : Prop :=
  (∀ s : State, (∀ k ∈ s.dev.halves, (s.dev.half k).fery.promoting.isSome = true ∧ (s.dev.half k).fery.staged = []) →
    Runs .promoteRecordDone s ((s.dev.eachHalf Dev.promoteHalf).promoteOpen).settleT) ∧
  (∀ (d : Dev) (k : Half) (g : Nat), (d.half k).fery.promoting = some (g, false) → g < 2 ^ 64 →
    let e := d.promoteHalf k
    (e.half k).fery.promoting = none ∧ e.reg64 k pgFERY 0x058 = g ∧ e.reg64 k pgFERY 0x068 = d.reg64 k pgFERY 0x090 ∧
      e.fld k pgFERY 0x044 2 0 = 1 ∧ (e.half k).fery.eff.mode = 1 ∧ (e.half k).fery.fenced = false ∧ (e.half k).fery.stream = [])

/-! ### Castling and the journal (R356 to R363, R367) -/

/-- A write of `CAST.CMD` by an origin whose path is free: BEGIN opens a transaction with the next id, and is refused to an LD and to an
origin that has one; COMMIT and ROLLBACK act on the origin's OPEN transaction, and are refused without one. -/
def Claim.CastCommands : Prop :=
  ∀ (org : Origin) (h : Half) (s : State), org.via h = h → s.dev.accBusy h org = false →
    let d := s.dev
    let reach (j : Bool) : Prop := d.gate org h h pgCAST 0x040 j = .pass
    let shown (e : Dev) (v : Nat) (st : CastState) : Dev :=
      ((e.journal org h pgCAST 0x040 rREFUSED 0 (loWord v)).castView { org := org, state := st, staged := 0, txn := 0 }).settleT
    (reach true →
      ((∃ n, org = .ld n) → Runs (.castBegin org h) s (shown d 1 .refused)) ∧
      (∀ i, (∀ n, org ≠ .ld n) → (∀ n, org ≠ .hw n) → (d.cast.slots.findIdx? fun t => t.any fun t => t.org == org) = none →
        (d.cast.slots.findIdx? fun t => t.isNone) = some i →
        let id := castId d.cast.count
        Runs (.castBegin org h) s ((((({ d with cast := { d.cast with
          slots := d.cast.slots.set i (some { org := org, id := id, beginW := d.west.ctl.jseq, beginE := d.east.ctl.jseq })
          count := id } } : Dev).journal org h pgCAST 0x040 rCOMMAND 0 (loWord 1) id).castView
            { org := org, state := .opened, staged := 0, txn := id })).settleT)) ∧
      (∀ i t, d.openTxn org = some i → d.cast.slots.getD i none = some t →
        Runs (.castRollback org h) s (((d.journal org h pgCAST 0x040 rCOMMAND 0 (loWord 3) t.id).castClose i .rolledBack true).settleT)) ∧
      (d.openTxn org = none → Runs (.castRollback org h) s (shown d 3 .refused))) ∧
    (reach false →
      (∀ i t, d.openTxn org = some i → d.cast.slots.getD i none = some t →
        Runs (.castCommit org h) s (((d.journal org h pgCAST 0x040 rCOMMAND 0 (loWord 2) t.id).castCommit h i t).settleT)) ∧
      (d.openTxn org = none → Runs (.castCommit org h) s (shown d 2 .refused)))

/-- What a commit does where it is decided (R360, R361): an empty one ends COMMITTED, one above 256 registers ABORT_SIZE, one before a
full ring ABORT_FULL, a failed check or conflict ends it with its error, and one that also changes the other half asks it. -/
def Obligations.CommitDecisions : Prop :=
  ∀ (d : Dev) (h : Half) (i : Nat) (t : Txn), (∀ x ∈ t.staged, alarmKey x.2.1 = false) →
    let e := d.updTxn i fun _ => { t with committing := true, coord := h }
    (t.staged = [] → t.overSize = false → d.castCommit h i t = (e.castClose i .committed true).raise h pgCAST .castCommitted t.id) ∧
    (t.overSize = true → d.castCommit h i t = e.castClose i .abortSize false) ∧
    (t.staged ≠ [] → t.overSize = false → e.jFull (e.ringHalf h) = true → d.castCommit h i t = e.castClose i .abortFull false) ∧
    (∀ st err js, t.staged ≠ [] → t.overSize = false → (∀ k, e.jFull k = false) →
      e.castJudge h i t = some (st, err, js) → d.castCommit h i t = e.castClose i st false err js) ∧
    (t.staged ≠ [] → t.overSize = false → (∀ k, e.jFull k = false) → t.touches h.other = true → e.sails h = true →
      e.castJudge h i t = none →
      d.castCommit h i t = (e.updTxn i fun t => { t with target := e.castTarget h }).fordSend h (.castPrepare t.id (e.castTarget h)))

/-- The exchange of a transaction over the Ford: PREPARE is checked and voted on, a vote decides, APPLY carries the decision, the
target boundary applies it, and the chart record ends it COMMITTED; an OPEN transaction of 1 s ends ABORT_TIMEOUT. -/
def Claim.CastExchange : Prop :=
  ∀ (h : Half) (s : State),
    (∀ id n i t d, id < 65536 → s.dev.fordTake h 0 FordMsg.isCastPrepare = some (.castPrepare id n, d) → d.txnOf id = some (i, t) →
      Runs (.castPrepare h) s ((d.fordSend h (.castVote id (d.castCan h && (d.castJudge h.other i t).isNone))).settleT)) ∧
    (∀ id i t d, id < 65536 → s.dev.fordTake h 0 FordMsg.isCastVote = some (.castVote id true, d) → d.txnOf id = some (i, t) → t.voted = false →
      let e := (d.updTxn i fun t => { t with voted := true }).fordSend h (.castApply id true)
      e.sails h = true → Runs (.castVote h) s e.settleT) ∧
    (∀ id i t d, id < 65536 → s.dev.fordTake h 0 FordMsg.isCastVote = some (.castVote id false, d) → d.txnOf id = some (i, t) → t.voted = false →
      d.castJudge h i t = none →
      Runs (.castVote h) s (((d.castClose i .abortCheck false).fordSend h (.castApply id false)).settleT)) ∧
    (∀ id i t d, id < 65536 → s.dev.fordTake h 0 FordMsg.isCastApply = some (.castApply id true, d) → d.txnOf id = some (i, t) →
      let e := d.updTxn i fun t => { t with otherKnows := true }
      e.sails h = true → Runs (.castApply h) s e.settleT) ∧
    (let d := ((s.dev.implicitApply h false).castApplyDue h).keysApply h
     Runs (.castBoundaryApply h) s (((d.ciphServe h).answerReads s.otp h).settleT)) ∧
    (∀ i t, i < s.dev.cast.slots.length → s.dev.cast.slots.getD i none = some t → t.committing = true → t.voted = true →
      t.allApplied = true → ∃ d : Dev, Runs (.chartRecordDone i) s d ∧ d.cast.slots.getD i none = none ∧
        (d.viewOf t.org).state = .committed ∧ (d.viewOf t.org).txn = t.id) ∧
    (∀ i t, s.dev.cast.slots.getD i none = some t → t.committing = false →
      Runs (.castTimeout i) s (s.dev.castClose i .abortTimeout false))

/-- The selectors of `JRNL` copy the 256 bits of a held entry or record into their registers, or show that it is gone, and are not
journaled; the ring at 75% is spilled, or the failure counted. -/
def Obligations.JournalPages : Prop :=
  (∀ (org : Origin) (h : Half) (seq : DWord) (s : State), s.dev.takes org h pgJRNL 0x058 false = true →
    let d := s.dev.wake h (pageIsland pgJRNL)
    ∃ e : Dev, Runs (.jrnlSel org h seq) s e ∧ e.reg64 h pgJRNL 0x058 = seq.toNat ∧ (e.half h).ctl.journal = (s.dev.half h).ctl.journal ∧
      (((d.half h).ctl.journal ++ (d.half h).ctl.spill.flatten).find? (fun j => j.jseq == seq.toNat) = none →
        (e.reg h pgJRNL 0x060).toNat = 3 * 2 ^ 30) ∧
      (∀ j, ((d.half h).ctl.journal ++ (d.half h).ctl.spill.flatten).find? (fun j => j.jseq == seq.toNat) = some j →
        (e.reg h pgJRNL 0x060).toNat = 2 * 2 ^ 30 ∧
        ∀ n, n < 8 → (e.reg h pgJRNL (0x080 + 4 * n)).toNat = j.bits / 2 ^ (32 * n) % 2 ^ 32)) ∧
  (∀ (org : Origin) (h : Half) (seq : DWord) (s : State), s.dev.takes org h pgJRNL 0x078 false = true →
    let d := s.dev.wake h (pageIsland pgJRNL)
    ∃ e : Dev, Runs (.jrnlEvSel org h seq) s e ∧ e.reg64 h pgJRNL 0x078 = seq.toNat ∧
      ((d.half h).ctl.evSeq < seq.toNat → ∀ n, n < 8 → e.reg h pgJRNL (0x0C0 + 4 * n) = 0)) ∧
  (∀ (h : Half) (s : State), 49152 ≤ (s.dev.half h).ctl.unspilled → s.dev.spillOk h = true →
    Runs (.journalSpill h true) s (s.dev.upd h fun x => { x with ctl := { spillRun 9 x.ctl with spillFails := 0 } }) ∧
    Runs (.journalSpill h false) s
      ((s.dev.upd h fun x => { x with ctl := { x.ctl with spillFails := x.ctl.spillFails + 1 } }).raise h pgJRNL .spillFail))

/-! ### The supervisor (R373 to R387) -/

/-- The up-sequence: SEQ_IN starts it with G1, each group that comes good hands on to the next, the release lets G5 go, and the last
group's delay brings SEQ_OUT up and the halves ON. -/
def Claim.UpSequence : Prop :=
  ∀ (s : State),
    let d := s.dev
    (d.supv.seqIn = false → d.supv.g0 = true → d.supv.tripped = false → d.supv.seq = .standby ∨ d.supv.seq = .off →
      d.supv.alarmDue = false →
      ∃ e : Dev, Runs .seqInRise s e ∧ e.supv.seq = .up ∧ e.supv.step = 1 ∧ e.supv.en.getLsbD 1 = true ∧ e.supv.seqIn = true ∧
        ∀ h ∈ d.halves, (e.half h).pwr.inReset = 0x1FFFFF) ∧
    (∀ n a b, d.supv.seq = .up → d.supv.step = n → n < 8 → d.supv.good.getLsbD n = false →
      let e : Dev := { d with supv := d.supv.mark n true }
      (n ≠ 1 → n ≠ 6 → Runs (.groupGood n a b) s (e.upNext n)) ∧ (n = 1 → Runs (.groupGood n a b) s (e.logHeld.upNext n)) ∧
      (n = 4 → d.supv.good.getLsbD 5 = false → Runs (.groupGood n a b) s { e with supv := { e.supv with seq := .holdRelease } })) ∧
    (d.supv.seq = .up → d.supv.good.getLsbD d.supv.step = true → d.nextGroup d.supv.step = 8 →
      Runs .seqOutDelay s (({ d with supv := { d.supv with seq := .on, step := 0, seqOut := true } } : Dev).eachPwr fun p => { p with
        state := .on
        lfStep := 0 })) ∧
    (∀ org, d.takes org .west pgSUPV 0x068 = true →
      let e := d.entry org .west pgSUPV 0x068 1
      (e.supv.seq = .holdRelease → Runs (.supvRelease org .west) s
        { e with supv := ({ e.supv with seq := .up, step := 5 } : Supv).enable 5 true }) ∧
      (e.supv.seq ≠ .holdRelease → Runs (.supvRelease org .west) s (d.refusal org .west pgSUPV 0x068 1))) ∧
    (∀ org, d.takes org .east pgSUPV 0x068 = true → Runs (.supvRelease org .east) s (d.refusal org .east pgSUPV 0x068 1))

/-- The down-sequence: a loss of input in an up-sequence starts it, in service it triggers Last Ferry with cause 1 where CFG allows, and
each group that has fallen, or that is slow to, hands on to the next. -/
def Claim.DownSequence : Prop :=
  ∀ (s : State),
    let d := s.dev
    let off : Dev := { d with supv := { d.supv with seqIn := false, upPending := false } }
    ((d.supv.seq = .up ∨ d.supv.seq = .holdRelease) → Runs .inputLoss s (off.downStart 0).settleT) ∧
    (d.supv.seq = .on → (off.halves.any fun h => off.live h) = true → off.fld .west pgPWRS 0x040 1 1 = 1 →
      Runs .inputLoss s ((((off.eachPwr fun p => { p with inputBack := false }).raise .west pgSUPV .inputLoss).trigger 1
        ((off.eachPwr fun p => { p with inputBack := false }).raise .west pgSUPV .inputLoss).halves).settleT)) ∧
    (∀ n, d.supv.seq = .down → d.supv.down.head? = some n → Runs (.railFallen n) s (d.downPop n)) ∧
    (∀ rail, d.supv.seq = .down → rail < 12 → d.supv.en.getLsbD (railGroup rail) = false →
      let e := (d.countFault rail 3).raise .west pgSUPV .fallSlow rail
      (d.supv.downKind ≠ 2 → e.supv.down.head? = some (railGroup rail) → Runs (.fallSlow rail) s (e.downPop (railGroup rail))) ∧
      (d.supv.downKind ≠ 2 → e.supv.down.head? ≠ some (railGroup rail) → Runs (.fallSlow rail) s e) ∧
      (d.supv.downKind = 2 → d.supv.down.head? = some (railGroup rail) → Runs (.fallSlow rail) s (d.downPop (railGroup rail))))

/-- A supply fault while the groups come up, and a group that times out, are counted, leave the first-failure record and start an
orderly down-sequence that holds new starts; a thermal trip is logged and switches off at once. -/
def Claim.SupplyFaults : Prop :=
  ∀ (h : Half) (rail : Nat) (s : State), h ∈ s.dev.halves → rail < 11 → s.dev.supv.g0 = true → s.dev.supv.seq = .up →
    let d := s.dev
    let n := railGroup rail
    let drop (e : Dev) : Dev := if n = 0 then e else { e with supv := e.supv.mark n false }
    (d.supv.good.getLsbD n = true → Runs (.supplyFault h rail 0) s
      (((((drop (d.countFault rail 0)).firstFail h rail 0).faultOff rail 0).downStart 0).settleT)) ∧
    (d.supv.good.getLsbD n = false → Runs (.supplyFault h rail 0) s d.settleT) ∧
    (d.supv.step = n → d.supv.good.getLsbD n = false → Runs (.groupTimeout n rail) s
      (((((drop (d.countFault rail 3)).firstFail .west rail 3).faultOff rail 3).downStart 0).settleT)) ∧
    (∀ diode temp, d.supv.tripped = false →
      let e := d.logPut 4 h d.rtcNow [diode, temp]
      Runs (.thermalTrip h diode temp) s
        (({ e with supv := { e.supv with tripped := true, thermtrip := true, upPending := false } } : Dev).downStart 2))

/-- The fault counters are flushed to the log every hour and by CLR_COUNTS, which then clears them; CNT_SEL takes a rail of 0 to 11. -/
def Claim.SupplyCounters : Prop :=
  ∀ (s : State),
    (s.dev.supv.g0 = true → Runs .counterFlush s s.dev.logCounts) ∧
    (∀ org, s.dev.takes org .west pgSUPV 0x068 = true →
      let e := (s.dev.entry org .west pgSUPV 0x068 2).logCounts
      Runs (.clrCounts org .west) s { e with supv := { e.supv with counts := [] } }) ∧
    (∀ org rail, s.dev.takes org .west pgSUPV 0x080 = true →
      (rail < 12 → Runs (.supvCntSel org .west rail) s ((s.dev.entry org .west pgSUPV 0x080 rail).setReg .west pgSUPV 0x080 rail)) ∧
      (12 ≤ rail → rail < 16 → Runs (.supvCntSel org .west rail) s (s.dev.refusal org .west pgSUPV 0x080 rail)))

/-- A housekeeping round counts itself, shows Tj as the hottest diode that takes part, moves at most one throttle step, reads the SPD
hubs in each 16th round, and goes critical at 110 °C in two rounds. -/
def Obligations.HousekeepingRounds : Prop :=
  (∀ (h : Half) (diodes : List (Option Int)) (volts currs : List Nat) (spd : List (Option Nat)) (drift : List Nat) (late : Bool) (s : State),
    let d := s.dev
    let was := sbyte (d.tj h)
    let now := d.roundTj h diodes
    let e := (d.roundRead h diodes volts currs drift late).throttle h was now
    d.roundMay h = true →
      ((e.reg h pgHKU 0x040).toNat % 16 ≠ 0 → Runs (.housekeepingRound h diodes volts currs spd drift late) s (e.critical h was now).settleT) ∧
      ((e.reg h pgHKU 0x040).toNat % 16 = 0 → Runs (.housekeepingRound h diodes volts currs spd drift late) s
        ((((List.range 12).foldl (fun d c => d.spdRead h (spd.getD c none, c)) e).critical h was now).settleT))) ∧
  (∀ (h : Half) (diodes : List (Option Int)) (volts currs drift : List Nat) (late : Bool) (d : Dev),
    let e := d.roundRead h diodes volts currs drift late
    (e.reg h pgHKU 0x040).toNat = ((d.reg h pgHKU 0x040).toNat + 1) % 2 ^ 32 ∧ e.tj h = byteOf (d.roundTj h diodes) ∧
      (∀ t ∈ diodes.take 24, diodeOk t = true → ∀ v, t = some v → v ≤ d.roundTj h diodes)) ∧
  (∀ (h : Half) (was now : Int) (d : Dev), now < 110 → d.critical h was now = d)

/-- RESET_N: low in service starts Last Ferry with cause 4, low in MOORED is counted and ignored, and the rise of a cold reset samples
the straps, of which the fuses override those that are locked. -/
def Claim.ResetPin : Prop :=
  ∀ (s : State),
    let d := s.dev
    let low : Dev := { d with supv := { d.supv with resetN := false } }
    ((low.halves.any fun h => low.live h) = false → d.supv.seq = .moored → Runs .resetNLow s
      ((low.eachPwr fun p => if p.state = .moored then { p with resetIgnored := p.resetIgnored + 1 } else p).settleT)) ∧
    ((low.halves.any fun h => low.live h) = true → (∀ h, low.inLf h = false) →
      let hs := low.halves.filter fun h => low.live h
      let e := low.eachPwr fun p => if p.state = .lastFerry then { p with resetPending := true } else p
      Runs .resetNLow s (((hs.foldl (fun d h => d.journal (.hw 21) h pgPWRS 0x04C rCOMMAND 0 1) e).startLf 4 hs).settleT)) ∧
    (d.supv.resetN = false → d.supv.seq ≠ .moored → d.single = true →
      let e : Dev := { d with supv := { d.supv with resetN := true } }
      (e.halves.any fun h => e.inLf h) = false → (e.halves.any fun h => e.live h) = false → ∀ a b,
      Runs (.resetNHigh a b) s ((e.upd .west fun x => { x with strap := { pins := a, eff := strapEff s.otp.west a } }).settleT)) ∧
    (d.supv.resetN = true → ∀ a b, Runs (.resetNHigh a b) s d.settleT)

/-- G0: its coming good starts the clocks and the supervisor afresh, and its loss takes what it keeps and leaves the voyage record and
the log's place. -/
def Claim.AlwaysOnSupply : Prop :=
  ∀ (s : State),
    (s.dev.supv.g0 = false → s.otp.west.config.getLsbD 0 = false → Runs .g0Good s
      { s.dev with
        uptime := 0
        time := 0
        supv := { logSeq := s.dev.supv.logSeq, logHead := s.dev.supv.logHead, seqIn := s.dev.supv.seqIn, resetN := s.dev.supv.resetN } }) ∧
    (s.otp.west.config.getLsbD 0 = true → ∃ d : Dev, Runs .g0Good s d ∧ d.single = true) ∧
    (∃ d : Dev, Runs .g0Removed s d ∧ d.supv.g0 = false ∧ d.supv.seq = .off ∧ d.supv.en = 0 ∧ d.uptime = 0 ∧ d.i3cWest = 0 ∧
      d.i3cEast = 0 ∧ d.supv.logSeq = s.dev.supv.logSeq ∧ ∀ h ∈ s.dev.halves, (d.half h).pwr.record = (s.dev.half h).pwr.record ∧
        (d.half h).ctl.chart = (s.dev.half h).ctl.chart)

/-- The I3C bus: a reset drops the open transactions and transport keys that came over it, and SETDASA sets a die's address. -/
def Obligations.I3cBus : Prop :=
  ∀ (s : State),
    (let d := s.dev.castDropOrg Origin.isBmc
     Runs .bmcBusReset s { d with keys := { d.keys with transports := d.keys.transports.filter fun t => !(Origin.isBmc t.org) } }) ∧
    (∀ a, Runs (.setdasa .west a) s { s.dev with i3cWest := a }) ∧
    (∀ a, s.dev.single = false → Runs (.setdasa .east a) s { s.dev with i3cEast := a })

/-! ### Rules stated whole -/

/-- R89: a CXL.mem response carries DevLoad, which the occupancy of the port's request queue gives: light (0) below 50%, optimal (1) to
75%, moderate (2) to 90%, severe (3) above 90% or while HOLDING; exactly 75% is one of the two that name it. The queue's depth is `Config.portDepth` + 1, a free value. -/
def Obligations.DevLoadOfResponses : Prop :=
  (∀ (d : Dev) (h : Half) (p : Nat),
    let q := d.portQueue h p
    let n := Config.portDepth + 1
    ((d.half h).sail.holding = true → d.devLoad h p = 3) ∧
    ((d.half h).sail.holding = false →
      (2 * q < n → d.devLoad h p = 0) ∧ (n ≤ 2 * q → 4 * q < 3 * n → d.devLoad h p = 1) ∧
      (4 * q = 3 * n → d.devLoad h p = 1 ∨ d.devLoad h p = 2) ∧ (3 * n < 4 * q → 10 * q ≤ 9 * n → d.devLoad h p = 2) ∧
      (9 * n < 10 * q → d.devLoad h p = 3))) ∧
  (∀ (d : Dev) (k : Half) (f : Floor) (h : Half) (p c w : Nat), f.src = .host h p c w →
    (∀ x, f.data = some x → (d.deliver k f).out.head? = some (.readData f.src x f.poison (d.devLoad h p))) ∧
    (f.data = none → (d.deliver k f).out.head? = some (.completion f.src (d.devLoad h p))))

/-- R114: a commit that stages an LD's floor or ceiling fails its check where the floors of the LDs with capacity in a half exceed 25%
of its frame pool, or a non-zero ceiling is below the floor or below 64 frames. -/
def Obligations.FloorAndCeilingChecks : Prop :=
  ∀ (d : Dev) (judge h : Half) (c off : Nat) (v : Word) (ws : List (Half × Nat × Word)), c < 64 → off = 0x068 ∨ off = 0x06C →
    (h, regKey (pgLDP c) off, v) ∈ ws →
    let n := ws.foldl (fun n e => n.putWord e.1 (e.2.1 / 1024) (e.2.1 % 1024 * 4) e.2.2) d
    let floorOf (h : Half) (c : Nat) : Nat := (n.reg h (pgLDP c) 0x068).toNat
    let ceiling := (n.reg h (pgLDP c) 0x06C).toNat
    ((∃ k ∈ n.halves, n.poolFrames k < 4 * lsum ((n.bound.filter fun e => n.ldIn e.1 e.2 k).map fun e => floorOf e.1 e.2)) ∨
      (ceiling ≠ 0 ∧ (ceiling < floorOf h c ∨ ceiling < 64))) → d.castCheck judge ws ≠ none

/-- R129: the columns of the data code are the 84 vectors of weight 3 and the first 44 of weight 5, each run in ascending order; the
check of a word is the XOR of the columns of its set bits, and check bit j of word w is sideband bit 9w + j. -/
def Obligations.DataCodeColumns : Prop :=
  (∀ i, i < 84 → popcount 9 (dataCol i).toNat = 3) ∧ (∀ i, 84 ≤ i → i < 128 → popcount 9 (dataCol i).toNat = 5) ∧
  (∀ i, i < 83 → (dataCol i).toNat < (dataCol (i + 1)).toNat) ∧ (∀ i, 84 ≤ i → i < 127 → (dataCol i).toNat < (dataCol (i + 1)).toNat) ∧
  (∀ v, v < 512 → popcount 9 v = 3 → ∃ i, i < 84 ∧ (dataCol i).toNat = v) ∧
  (∀ v, v ≤ 0x0D9 → popcount 9 v = 5 → ∃ i, 84 ≤ i ∧ i < 128 ∧ (dataCol i).toNat = v) ∧
  dataCol 0 = 0x007 ∧ dataCol 83 = 0x1C0 ∧ dataCol 84 = 0x01F ∧ dataCol 127 = 0x0D9 ∧
  (∀ j, j < 9 → decodeData 0 (BitVec.twoPow 9 j) = ⟨.corrected, BitVec.twoPow 9 j, 0, 0⟩) ∧
  (∀ (w : BitVec 128) (i : Nat), i < 128 → dataCheck (w ^^^ BitVec.twoPow 128 i) = dataCheck w ^^^ dataCol i) ∧ dataCheck 0 = 0 ∧
  (∀ (line : Nat) (d : LineData) (t : Tags) (w j : Nat), w < 4 → j < 9 →
    (encodeLine line d t).side.getLsbD (9 * w + j) = (dataCheck (lineWord d w)).getLsbD j)

/-- R195: bits [19:8] of an accepted codeword's header are its sequence, modulo 4,096, and bits [7:0] the staging credits it returns, in
units of 64 KiB. -/
def Obligations.CodewordHeader : Prop :=
  ∀ (h : Half) (bits : BitVec 5140) (s : State), ((s.dev.half h).fery.link = .up ∨ (s.dev.half h).fery.link = .session) →
    let f := (s.dev.half h).fery
    let sc := scrambler 5140 f.lfsr 0
    let m := bits ^^^ BitVec.ofNat 5140 sc.2
    let header := m.extractLsb' 5120 20
    let slots := f.rxSlots ++ (List.range 20).map (cwSlot m)
    header.toNat / 256 = (f.rxCseq.toNat + 1) % 4096 → slotsOk slots.length slots = true →
      Runs (.ferryCodeword h bits 0) s ((s.dev.updFery h fun f => { f with
        lfsr := sc.1
        rxCseq := BitVec.ofNat 12 (header.toNat / 256)
        nakSent := false
        sinceAck := f.sinceAck + 1
        rxSlots := slots
        credits := f.credits + header.toNat % 256 }).pump h).settleT

/-! ### The whole machine -/

/-- Every bit programmed in the rows `r` is programmed in the rows `o`, and the write-once fields are those of `r`. -/
def fusesFrom (r o : Pair OtpRow) : Prop :=
  ∀ k : Half,
    let a := r.get k
    let b := o.get k
    let kept {n : Nat} (x y : Triple n) : Prop := x.a &&& y.a = x.a ∧ x.b &&& y.b = x.b ∧ x.c &&& y.c = x.c
    kept a.svn b.svn ∧ kept a.lifecycle b.lifecycle ∧ kept a.strapLock b.strapLock ∧ kept a.strapVal b.strapVal ∧
    kept a.revoke b.revoke ∧ a.onceBytes = b.onceBytes ∧ a.wcrc = b.wcrc ∧ a.repair = b.repair ∧ a.rcrc = b.rcrc ∧
    a.life ≤ b.life ∧ a.svnOf ≤ b.svnOf

/-- An OTP bit is never cleared, and the lifecycle and the security version move only forward (R283, R282): from every state that
has the bits of `r`, every step leads to one that has them. -/
def Obligations.FusesOnlyProgram : Prop :=
  ∀ (r : Pair OtpRow) (s t : State), fusesFrom r s.otp → step s = .next t → fusesFrom r t.otp

/-- At reset both rows agree in their write-once fields and are in PRODUCTION with security version 0; the row's contents are the
model's choice (notes/assumptions/35.md). -/
def Obligations.FusesAtReset : Prop :=
  fusesFrom State.reset.otp State.reset.otp ∧ ∀ k : Half,
    State.reset.otp.west.sameOnce (State.reset.otp.get k) = true ∧ (State.reset.otp.get k).life = 2 ∧ (State.reset.otp.get k).svnOf = 0

/-- After reset nothing waits, no group but G0 is good, SEQ_OUT is low, and writable registers hold the Reset values of their tables. -/
def Obligations.ResetValues : Prop :=
  State.reset.pending = [] ∧ State.reset.dev.supv.good = 1 ∧ State.reset.dev.supv.seqOut = false ∧ ∀ h : Half,
    let reg (page off : Nat) : Nat := (State.reset.dev.reg h page off).toNat
    reg pgMGMT 0x048 = 3 ∧ reg pgSUPV 0x040 = 2 ^ 31 + 10 * 2 ^ 8 + 5 ∧ reg pgTHRM 0x040 = 95 * 2 ^ 16 + 100 * 2 ^ 8 + 3 * 16 + 3 ∧
    reg pgSAIL 0x040 = 8 ∧ reg pgSAIL 0x044 = 4096 * 2 ^ 16 + 1 ∧ reg pgSAIL 0x070 = 1000 ∧ reg pgTIER 0x040 = 256 ∧
    reg pgTIER 0x044 = 4 * 2 ^ 16 + 50 * 2 ^ 8 + 90 ∧ reg pgLAND 0x040 = 3 ∧ reg pgLAND 0x04C = 32 ∧ reg pgSCOR 0x040 = 2 ^ 31 + 24 ∧
    reg pgFERY 0x040 = 50 * 2 ^ 16 + 2 ^ 11 + 1 ∧ reg pgFERY 0x044 = 512 * 2 ^ 16 ∧ reg pgCIPH 0x040 = 15 ∧ reg pgKEYS 0x068 = 16 ∧
    (∀ c, c < 12 → reg (pgMEMC c) 0x040 = 200 * 2 ^ 16 + 30 * 2 ^ 8 + 3 ∧ reg (pgMEMC c) 0x060 = 100 * 2 ^ 16 + 10) ∧
    (∀ i, i < 4 → reg (pgFLSH i) 0x040 = 255 * 2 ^ 16 + 3600 ∧ reg (pgFLSH i) 0x04C = 100 * 2 ^ 16 + 4 * 2 ^ 8)

/-- No word spells a command, since the opcode table gives no row any bits: the model's reading (notes/assumptions/3.md). -/
def Obligations.NoWordSpellsACommand : Prop :=
  ∀ (nbits w : Nat) (s : State), decodeTableWord nbits w = none ∧ s.withFetchWord nbits w = s

/-! ### Stored lines and the journal -/

/-- R128: a write takes its bytes and leaves the others, sets W for every word in which it writes a byte, and a full-line write sets
all four. -/
def Obligations.WritesMergeBytes : Prop :=
  (∀ (old new : LineData) (mask : BitVec 64) (i : Nat), i < 512 →
    (mergeBytes old new mask).getLsbD i = if mask.getLsbD (i / 8) then new.getLsbD i else old.getLsbD i) ∧
  (∀ (mask : BitVec 64) (w : Nat), w < 4 → ((maskWords mask).getLsbD w = true ↔ ∃ k, 16 * w ≤ k ∧ k < 16 * w + 16 ∧ mask.getLsbD k = true)) ∧
  (∀ old new : LineData, mergeBytes old new fullMask = new) ∧ maskWords fullMask = 0xF

/-- A stored line goes to its Landing slot, dirty, where the cache holds it (R182), and to its frame as ciphertext where the cache
is not enabled (R186); every other slot and every other line of every frame stays. -/
def Obligations.StoredLinesStay : Prop :=
  ∀ (d : Dev) (h : Half) (line : Nat) (x : LineData) (t : Tags),
    let e := d.storeLine h line x t
    let f := (d.tile h (lineTile line)).frame.toNat
    (∀ key old, d.landFind h line = some (key, old) → (d.half h).land.state ≠ .draining →
      smGet (e.half h).land.slots key = some { tag := landTag line, dirty := true, line := encodeLine line x t } ∧
      (∀ k, k ≠ key → smGet (e.half h).land.slots k = smGet (d.half h).land.slots k) ∧ (e.half h).tier = (d.half h).tier) ∧
    (d.landFind h line = none → (d.half h).land.state ≠ .enabled →
      e.frameLine h f (lineJ line) = encodeLine line ((d.lineCrypt h true line t x).getD 0) t ∧
      (∀ g j, j < 1024 → lineJ line < 1024 → (g ≠ f ∨ j ≠ lineJ line) → e.frameLine h g j = d.frameLine h g j) ∧
      (e.half h).land = (d.half h).land ∧ (e.half h).tier.manf = (d.half h).tier.manf)

/-- R355: the fields of a journal entry, zero in bits [79:37]; the class and number of each origin; and the entry that a change, a
command (OLD zero) or a refused write (OLD zero) appends while the complex runs and the ring has room. -/
def Obligations.JournalEntries : Prop :=
  (∀ e : JEntry, let b := bitsOf e.bits
    b 255 192 = e.time % 2 ^ 64 ∧ b 191 160 = e.new.toNat ∧ b 159 128 = e.old.toNat ∧ b 127 96 = e.jseq % 2 ^ 32 ∧
    b 95 80 = e.txn % 2 ^ 16 ∧ b 79 37 = 0 ∧ b 36 34 = e.result % 8 ∧ b 33 31 = e.cls % 8 ∧ b 30 23 = e.org % 256 ∧
    b 22 13 = e.word % 1024 ∧ b 12 1 = e.page % 4096 ∧ b 0 0 = e.half.num ∧ e.bits < 2 ^ 256) ∧
  [rAPPLIED, rCOMMITTED, rREFUSED, rCOMMAND, rABORTED] = [0, 1, 2, 3, 4] ∧
  (∀ d : Dev, (∀ i, d.orgCode (.hw i) = (0, i)) ∧ (∀ g, d.orgCode (.host g) = (1, g)) ∧ (∀ n, d.orgCode (.ld n) = (2, n)) ∧
    d.orgCode (.bmc .west) = (3, d.i3cWest.toNat) ∧ d.orgCode (.bmc .east) = (3, d.i3cEast.toNat) ∧
    (∀ h a, d.orgCode (.fw h a) = (4, 16 * h.num + a))) ∧
  (∀ (d : Dev) (org : Origin) (h : Half) (page off r : Nat) (old new : Word) (txn : Nat),
    let k := d.ringHalf h
    (d.half k).boot.running = true → (d.half k).ctl.unspilled < 65536 →
    ((d.journal org h page off r old new txn).half k).ctl.journal.head? = some {
      time := d.time % 2 ^ 64, new := new, old := old, jseq := (d.half k).ctl.jseq + 1, txn := txn, result := r
      cls := (d.orgCode org).1, org := (d.orgCode org).2, word := off / 4, page := page, half := h }) ∧
  (∀ (d : Dev) (org : Origin) (h : Half) (page off v : Nat) (w : Word),
    d.journalCmd org h page off v false rCOMMAND = d.journal org h page off rCOMMAND 0 (loWord v) ∧
    d.refuse org h page off w = d.journal org h page off rREFUSED 0 w)

/-- Commands that move no line and no key: settings, reports, selectors, and what the links and the supply say. -/
def leavesTiles : Instr → Bool
  | .fordFlitBad .. | .fordReplayRequest .. | .fordLaneRepair .. | .fordRetrainCmd .. | .fordIdleFlit .. | .reservationRecordDone ..
  | .fence .. | .fenceTimeout .. | .gpfPhase1 | .gpfPhase2 | .gpfLate | .mgmtHeartbeatTimer .. | .mgmtHeartbeat .. | .mgmtPeerLost ..
  | .mgmtRestored .. | .restartPeer .. | .linkUp .. | .perstNDeassert .. | .hdmDecoderCommit .. | .getEventRecords ..
  | .clearEventRecords .. | .getEventInterruptPolicy .. | .setEventInterruptPolicy .. | .getFwInfo .. | .getTimestamp ..
  | .setTimestamp .. | .getSupportedLogs .. | .getLog .. | .identifyMemoryDevice .. | .getPartitionInfo ..
  | .getDynamicCapacityConfiguration .. | .getDynamicCapacityExtentList .. | .dcAdd .. | .addDynamicCapacityResponse ..
  | .releaseDynamicCapacity .. | .getLsa .. | .setLsa .. | .getHealthInfo .. | .getAlertConfiguration .. | .setAlertConfiguration ..
  | .getShutdownState .. | .setShutdownState .. | .getPoisonList .. | .getScanMediaCapabilities .. | .scanMedia ..
  | .getScanMediaResults .. | .mailboxUnsupported .. | .cdatRequest .. | .manfPeek .. | .repeatFilterExpiry .. | .scorSel ..
  | .refresh .. | .zqCalibration .. | .driftMeasure .. | .transferFw .. | .activateFw .. | .bootMeasSel .. | .getVersion ..
  | .getCapabilities .. | .negotiateAlgorithms .. | .getDigests .. | .getCertificate .. | .challenge .. | .getMeasurements ..
  | .chunkGet .. | .spdmStateTimeout .. | .spdmUnsupportedRequest .. | .pwrfailNFall | .pwrfailGlitch | .inputPowerReturn
  | .ddrIdleGate .. | .jrnlSel .. | .jrnlEvSel .. | .journalSpill .. | .ferryAlignmentBlock .. | .setdasa .. => true
  | _ => false

/-- None of these commands changes a Manifest entry, a frame, a Landing line, a NAND page, a cipher queue or a key, in either half, or
a fuse. -/
def Obligations.TilesAndKeysStay : Prop :=
  ∀ (i : Instr) (s t : State), leavesTiles i = true → exec i s = .next t → t.dev.stores = s.dev.stores ∧ t.otp = s.otp

/-! ### The order of fences -/

/-- R48: up to 64 fences of an LD are outstanding and complete in doorbell order, each when its target is sealed; a 65th completes at
once FAILED (4) with QUEUE_FULL (1) and leaves the 64; a seal and a timeout complete the oldest first. -/
def Obligations.FencesInOrder : Prop :=
  ∀ (h : Half) (c : Nat) (s : State),
    (∀ org token, s.dev.takes org h (pgLDP c) 0x100 false = true →
      let d := s.dev.wake h (pageIsland (pgLDP c))
      let x := d.ldc h c
      let all := x.fences ++ [({ token := token, target := x.mark } : Fence)]
      let sealedTo := (d.half h).sail.sealed
      (64 ≤ x.fences.length → ∃ e : Dev, Runs (.fence org h c token) s e ∧ (e.ldc h c).fences = x.fences ∧
        (e.ldc h c).doneStatus = 4 ∧ (e.ldc h c).doneReason = 1 ∧ (e.ldc h c).doneToken = token ∧
        (e.ldc h c).doneSeq = (x.doneSeq + 1) % 2 ^ 16) ∧
      (x.fences.length < 64 → ∃ (e : Dev) (k : Nat), Runs (.fence org h c token) s e ∧ (e.ldc h c).fences = all.drop k ∧
        (∀ f ∈ all.take k, f.target ≤ sealedTo) ∧ (∀ f, (all.drop k).head? = some f → sealedTo < f.target) ∧
        (∀ f, (all.take k).getLast? = some f → (e.ldc h c).doneToken = f.token ∧ (e.ldc h c).doneReason = 0))) ∧
    (∀ f fs, (s.dev.ldc h c).fences = f :: fs → ∃ (e : Dev) (k : Nat), Runs (.fenceTimeout h c) s e ∧
      (e.ldc h c).fences = fs.drop k ∧ (∀ g ∈ fs.take k, g.target ≤ (s.dev.half h).sail.sealed) ∧
      (k = 0 → (e.ldc h c).doneStatus = 4 ∧ (e.ldc h c).doneReason = 3 ∧ (e.ldc h c).doneToken = f.token)) ∧
    (∀ d : Dev, let fs := (d.ldc h c).fences
      ∃ k, ((Dev.fencesLd h c fs d).ldc h c).fences = fs.drop k ∧ (∀ f ∈ fs.take k, f.target ≤ (d.half h).sail.sealed) ∧
        ∀ f, (fs.drop k).head? = some f → (d.half h).sail.sealed < f.target)

/-! ### The statements about several groups of commands -/

/-- Mailbox reports, settings and logs, and CDAT. -/
def Obligations.MailboxReports : Prop :=
  Claim.MailboxReportsChangeNothing ∧ Claim.MailboxSettings ∧ Claim.MailboxLogs ∧ Claim.CdatAnswers

/-- Dynamic Capacity: lists, offers, acceptances and releases. -/
def Obligations.DynamicCapacity : Prop :=
  Claim.DynamicCapacityAnswers ∧ Claim.ReleasedExtentEnds ∧ Claim.DynamicCapacityChanges

/-- Poison commands, scans, Sanitize and Secure Erase. -/
def Obligations.PoisonAndErase : Prop :=
  Claim.PoisonAndMediaCommands ∧ Claim.BackgroundCommandsEnd ∧ Claim.PoisonWritesEnter ∧ Claim.ErasesStart

/-- Host reads and writes, BLANK and LOST tiles, Manifest fetches, DRAM reads, heals, and requests across the halves. -/
def Obligations.HostAccesses : Prop :=
  Claim.HostAccess ∧ Claim.ReadsOfBlankAndLost ∧ Claim.ManifestFetchReturns ∧ Claim.DramReadsAndHeals ∧ Claim.CrossHalfRequests

/-- The Ford: flits, replay, lanes, modules, training and the retrain command. -/
def Obligations.FordLink : Prop :=
  Claim.FordFlits ∧ Claim.FordLanesAndModules ∧ Claim.FordTraining ∧ Claim.FordRetrainCommand

/-- Sailings open and seal by the beacon, fences complete or time out, and GPF answers. -/
def Obligations.Sailings : Prop :=
  Claim.SailingsOpenAndSeal ∧ Claim.Fences ∧ Claim.GpfPhases

/-- Resets of ports, sub-links and LDs; link training; HDM decoder commits. -/
def Obligations.PortsAndLinks : Prop :=
  Claim.PortResets ∧ Claim.LinksTrain ∧ Claim.DecoderCommits

/-- Register reads and writes, the alarm register, and register messages over the Ford. -/
def Obligations.RegisterAccesses : Prop :=
  Claim.RegisterAccessesAreMade ∧ Claim.RtcAlarmApplies ∧ Claim.RegisterMessages

/-- Dark pages, WR_LOCK, and command registers inside an open transaction. -/
def Obligations.RegisterRefusals : Prop :=
  Claim.DarkPages ∧ Claim.LockedPagesRefuse ∧ Claim.CommandsRefusedInOpenTransaction

/-- Management complexes beat, are lost, taken over and restored; islands fail, wake and leave reset; ACCEPT_LOCAL. -/
def Obligations.ManagementComplexes : Prop :=
  Claim.ManagementHeartbeats ∧ Claim.ManagementLossAndReturn ∧ Claim.IslandEvents ∧ Claim.AcceptLocal

/-- Promotions, sinks, evictions, formatting of frames, checkpoints, the age clock, re-homing and retirement copies. -/
def Obligations.PromotionAndSink : Prop :=
  Claim.PromotionsEnd ∧ Claim.SinksStartAndEnd ∧ Claim.FramesAndCheckpoints ∧ Claim.AgeTicks ∧ Claim.RehomingAndRetirement

/-- The TIER commands, retirement commands, stream windows and MANF.PEEK. -/
def Obligations.TierRegisterCommands : Prop :=
  Claim.TierCommands ∧ Claim.RetirementCommands ∧ Claim.StreamWindows ∧ Claim.ManifestPeek

/-- Scrub reads, SRAM sweeps, and line repairs. -/
def Obligations.ScrubAndRepair : Prop :=
  Claim.ScrubReads ∧ Claim.SramSweeps ∧ Claim.RepairsGoOn

/-- The ECCD commands, injections and the scoresheet. -/
def Obligations.EccDiagnosis : Prop :=
  Claim.EccdCommands ∧ Claim.InjectionAndScoresheet

/-- Refresh, ZQ, self-refresh, parity alerts, retrains, drift and the timing sets. -/
def Obligations.DramChannels : Prop :=
  Claim.SubchannelUpkeep ∧ Claim.ParityAlerts ∧ Claim.Retraining ∧ Claim.DriftMeasurements ∧ Claim.TimingSets

/-- The training runs of DTRN.RUN start, are refused and end. -/
def Obligations.TrainingRuns : Prop :=
  Claim.TrainingRunsStart ∧ Claim.TrainingRunsEnd

/-- The LAND commands and the events of the Landing cache. -/
def Obligations.LandingCache : Prop :=
  Claim.LandCommands ∧ Claim.LandEvents

/-- What a half does with codewords, alignment blocks and messages of the Ferry. -/
def Obligations.FerryReceives : Prop :=
  Claim.FerryCodewords ∧ Claim.AlignmentBlocks ∧ Claim.FerryMessagesWithoutTag ∧ Claim.FerryMessagesWithTag

/-- Closes are checked, sailings applied, tiles recalled, pulled and resynced. -/
def Obligations.FerrySailings : Prop :=
  Claim.SailingCloses ∧ Claim.SailingsApply ∧ Claim.RecallsAndPulls ∧ Claim.Resyncs

/-- Heartbeats, rekeys, session set-up, pairing, lane training and the FERY commands. -/
def Obligations.FerrySession : Prop :=
  Claim.FerryHeartbeats ∧ Claim.Rekeys ∧ Claim.SessionSetUp ∧ Claim.SessionsPair ∧ Claim.FerryTraining ∧ Claim.FerryCommands

/-- Flash descriptors, NAND operations, channels, formatting and the diagnostic slot. -/
def Obligations.FlashTier : Prop :=
  Claim.FlashSubmissions ∧ Claim.FlashOperations ∧ Claim.FlashChannels ∧ Claim.Formatting ∧ Claim.DiagnosticSlot

/-- The KEYS commands, deferred loads, erasures and walks. -/
def Obligations.KeySlots : Prop :=
  Claim.KeyCommands ∧ Claim.KeyLoadsAndErasures ∧ Claim.KeyWalks

/-- Cipher requests queue, run, age and complete. -/
def Obligations.CipherWork : Prop :=
  Claim.CipherRequests ∧ Claim.CipherEngine

/-- The ROM boots, measurements, recovery images and firmware updates. -/
def Obligations.BootAndFirmware : Prop :=
  Claim.MeasurementSelector ∧ Claim.RomBoots ∧ Claim.FirmwareUpdates

/-- SPDM requests and their order. -/
def Obligations.Attestation : Prop :=
  Claim.SpdmOpening ∧ Claim.SpdmSessions

/-- PWRFAIL_N, ride-through, and the power commands. -/
def Obligations.PowerFailures : Prop :=
  Claim.PowerFailure ∧ Claim.PowerCommands

/-- Last Ferry drains, evacuates and writes its record. -/
def Obligations.LastFerry : Prop :=
  Claim.LastFerryDrains ∧ Claim.LastFerryRecords

/-- The alarm wakes, cold starts, re-arming and idle gates. -/
def Obligations.WakesAndStarts : Prop :=
  Claim.AlarmWakes ∧ Claim.ColdStarts ∧ Claim.RearmingAndIdleGates

/-- Castling: BEGIN, COMMIT and ROLLBACK, and the exchange of a transaction over the Ford. -/
def Obligations.CastlingCommands : Prop :=
  Claim.CastCommands ∧ Claim.CastExchange

/-- The up- and down-sequences, G0 and RESET_N. -/
def Obligations.SupplySequences : Prop :=
  Claim.UpSequence ∧ Claim.DownSequence ∧ Claim.AlwaysOnSupply ∧ Claim.ResetPin

/-- Supply faults, thermal trips and the fault counters. -/
def Obligations.SupplyFaultsAndCounters : Prop :=
  Claim.SupplyFaults ∧ Claim.SupplyCounters
end

