-- ==== Sys2Proof/Laws/Command.lean ====
section
/-! SUPPORT. What a register command does where it is taken, and where its act refuses it (R351): the laws that statements about
register commands cite. -/

namespace Sys2Proof.Machine

/-- Where a command is taken, its act decides: the entry is COMMAND and the act's effect follows, or the entry is REFUSED. -/
theorem command_takes {d : Dev} {org : Origin} {h : Half} {page off : Nat} (v : Nat) (act : Dev → Option Dev) (wide : Bool)
    (no : Dev → Dev) (k : d.takes org h page off true = true) :
    d.command org h page off v act wide true no =
      match act (d.entry org h page off v wide) with
      | some e => e
      | none => no (d.refusal org h page off v wide) := by
  simp only [Dev.takes, Bool.and_eq_true, beq_iff_eq, Bool.not_eq_true'] at k
  obtain ⟨⟨⟨v1, b⟩, g⟩, o⟩ := k
  have o' : (d.openTxn org).isSome = false := by cases x : d.openTxn org <;> simp_all
  simp only [Dev.command, v1, b, g, o', Dev.localCommand, Dev.entry, Dev.refusal, bne_self_eq_false, Bool.false_and, Bool.false_eq_true, if_false]
  rfl

/-- The same for a command that is not journaled (R354). -/
theorem command_takes_free {d : Dev} {org : Origin} {h : Half} {page off : Nat} (v : Nat) (act : Dev → Option Dev) (wide : Bool)
    (no : Dev → Dev) (k : d.takes org h page off false = true) :
    d.command org h page off v act wide false no =
      match act (d.wake h (pageIsland page)) with
      | some e => e
      | none => no (d.wake h (pageIsland page)) := by
  simp only [Dev.takes, Bool.and_eq_true, beq_iff_eq, Bool.not_eq_true'] at k
  obtain ⟨⟨⟨v1, b⟩, g⟩, o⟩ := k
  have o' : (d.openTxn org).isSome = false := by cases x : d.openTxn org <;> simp_all
  simp only [Dev.command, v1, b, g, o', Dev.localCommand, bne_self_eq_false, Bool.false_and, Bool.false_eq_true, if_false] <;> rfl

end Sys2Proof.Machine
end

