-- ==== Sys2Proof/Laws/State.lean ====
section
/-! SUPPORT. What the updates of the device leave and change, one lemma per field: no later proof unfolds a record update. -/

namespace Sys2Proof.Machine

/-! ### The other half -/

@[simp] theorem half_other_other (h : Half) : h.other.other = h := by cases h <;> rfl
@[simp] theorem half_other_ne (h : Half) : (h.other = h) = False := by cases h <;> simp [Half.other]
@[simp] theorem half_ne_other (h : Half) : (h = h.other) = False := by cases h <;> simp [Half.other]

/-- Every half is one of the two, seen from either. -/
theorem half_cases (h k : Half) : k = h ∨ k = h.other := by cases h <;> cases k <;> simp [Half.other]

/-! ### Replacing a half -/

@[simp] theorem setHalf_half (d : Dev) (h : Half) (x : HalfState) : (d.setHalf h x).half h = x := by cases h <;> rfl
@[simp] theorem setHalf_half_other (d : Dev) (h : Half) (x : HalfState) : (d.setHalf h x).half h.other = d.half h.other := by
  cases h <;> rfl
theorem setHalf_half_ne (d : Dev) {h k : Half} (x : HalfState) (n : k ≠ h) : (d.setHalf h x).half k = d.half k := by
  cases h <;> cases k <;> first | rfl | exact absurd rfl n
@[simp] theorem setHalf_cast (d : Dev) (h : Half) (x : HalfState) : (d.setHalf h x).cast = d.cast := by cases h <;> rfl
@[simp] theorem setHalf_keys (d : Dev) (h : Half) (x : HalfState) : (d.setHalf h x).keys = d.keys := by cases h <;> rfl
@[simp] theorem setHalf_supv (d : Dev) (h : Half) (x : HalfState) : (d.setHalf h x).supv = d.supv := by cases h <;> rfl
@[simp] theorem setHalf_flash (d : Dev) (h : Half) (x : HalfState) : (d.setHalf h x).flash = d.flash := by cases h <;> rfl
@[simp] theorem setHalf_spdm (d : Dev) (h : Half) (x : HalfState) : (d.setHalf h x).spdm = d.spdm := by cases h <;> rfl
@[simp] theorem setHalf_time (d : Dev) (h : Half) (x : HalfState) : (d.setHalf h x).time = d.time := by cases h <;> rfl
@[simp] theorem setHalf_uptime (d : Dev) (h : Half) (x : HalfState) : (d.setHalf h x).uptime = d.uptime := by cases h <;> rfl
@[simp] theorem setHalf_solo (d : Dev) (h : Half) (x : HalfState) : (d.setHalf h x).solo = d.solo := by cases h <;> rfl
@[simp] theorem setHalf_split (d : Dev) (h : Half) (x : HalfState) : (d.setHalf h x).split = d.split := by cases h <;> rfl
@[simp] theorem setHalf_lastCommon (d : Dev) (h : Half) (x : HalfState) : (d.setHalf h x).lastCommon = d.lastCommon := by
  cases h <;> rfl
@[simp] theorem setHalf_rejoin (d : Dev) (h : Half) (x : HalfState) : (d.setHalf h x).rejoin = d.rejoin := by cases h <;> rfl
@[simp] theorem setHalf_gpf (d : Dev) (h : Half) (x : HalfState) : (d.setHalf h x).gpf = d.gpf := by cases h <;> rfl
@[simp] theorem setHalf_i3cWest (d : Dev) (h : Half) (x : HalfState) : (d.setHalf h x).i3cWest = d.i3cWest := by cases h <;> rfl
@[simp] theorem setHalf_i3cEast (d : Dev) (h : Half) (x : HalfState) : (d.setHalf h x).i3cEast = d.i3cEast := by cases h <;> rfl
@[simp] theorem setHalf_out (d : Dev) (h : Half) (x : HalfState) : (d.setHalf h x).out = d.out := by cases h <;> rfl
@[simp] theorem setHalf_freeCtr (d : Dev) (h : Half) (x : HalfState) : (d.setHalf h x).freeCtr = d.freeCtr := by cases h <;> rfl
@[simp] theorem setHalf_otpc (d : Dev) (h : Half) (x : HalfState) : (d.setHalf h x).otpc = d.otpc := by cases h <;> rfl

/-! ### Changing a half -/

@[simp] theorem upd_half (d : Dev) (h : Half) (f : HalfState → HalfState) : (d.upd h f).half h = f (d.half h) := by cases h <;> rfl
@[simp] theorem upd_half_other (d : Dev) (h : Half) (f : HalfState → HalfState) : (d.upd h f).half h.other = d.half h.other := by
  cases h <;> rfl
theorem upd_half_ne (d : Dev) {h k : Half} (f : HalfState → HalfState) (n : k ≠ h) : (d.upd h f).half k = d.half k := by
  cases h <;> cases k <;> first | rfl | exact absurd rfl n
/-- Two changes of a half that agree on the half as it stands are one change. -/
theorem upd_congr (d : Dev) (h : Half) {f g : HalfState → HalfState} (e : f (d.half h) = g (d.half h)) : d.upd h f = d.upd h g := by
  simp only [Dev.upd, e]
@[simp] theorem upd_cast (d : Dev) (h : Half) (f : HalfState → HalfState) : (d.upd h f).cast = d.cast := by cases h <;> rfl
@[simp] theorem upd_keys (d : Dev) (h : Half) (f : HalfState → HalfState) : (d.upd h f).keys = d.keys := by cases h <;> rfl
@[simp] theorem upd_supv (d : Dev) (h : Half) (f : HalfState → HalfState) : (d.upd h f).supv = d.supv := by cases h <;> rfl
@[simp] theorem upd_flash (d : Dev) (h : Half) (f : HalfState → HalfState) : (d.upd h f).flash = d.flash := by cases h <;> rfl
@[simp] theorem upd_spdm (d : Dev) (h : Half) (f : HalfState → HalfState) : (d.upd h f).spdm = d.spdm := by cases h <;> rfl
@[simp] theorem upd_time (d : Dev) (h : Half) (f : HalfState → HalfState) : (d.upd h f).time = d.time := by cases h <;> rfl
@[simp] theorem upd_uptime (d : Dev) (h : Half) (f : HalfState → HalfState) : (d.upd h f).uptime = d.uptime := by cases h <;> rfl
@[simp] theorem upd_solo (d : Dev) (h : Half) (f : HalfState → HalfState) : (d.upd h f).solo = d.solo := by cases h <;> rfl
@[simp] theorem upd_split (d : Dev) (h : Half) (f : HalfState → HalfState) : (d.upd h f).split = d.split := by cases h <;> rfl
@[simp] theorem upd_gpf (d : Dev) (h : Half) (f : HalfState → HalfState) : (d.upd h f).gpf = d.gpf := by cases h <;> rfl
@[simp] theorem upd_i3cWest (d : Dev) (h : Half) (f : HalfState → HalfState) : (d.upd h f).i3cWest = d.i3cWest := by cases h <;> rfl
@[simp] theorem upd_i3cEast (d : Dev) (h : Half) (f : HalfState → HalfState) : (d.upd h f).i3cEast = d.i3cEast := by cases h <;> rfl
@[simp] theorem upd_out (d : Dev) (h : Half) (f : HalfState → HalfState) : (d.upd h f).out = d.out := by cases h <;> rfl
@[simp] theorem upd_freeCtr (d : Dev) (h : Half) (f : HalfState → HalfState) : (d.upd h f).freeCtr = d.freeCtr := by cases h <;> rfl
@[simp] theorem upd_otpc (d : Dev) (h : Half) (f : HalfState → HalfState) : (d.upd h f).otpc = d.otpc := by cases h <;> rfl

/-! ### Sending something out -/

@[simp] theorem emit_half (d : Dev) (o : Output) (h : Half) : (d.emit o).half h = d.half h := by cases h <;> rfl
@[simp] theorem emit_out (d : Dev) (o : Output) : (d.emit o).out = o :: d.out := rfl
@[simp] theorem emit_cast (d : Dev) (o : Output) : (d.emit o).cast = d.cast := rfl
@[simp] theorem emit_keys (d : Dev) (o : Output) : (d.emit o).keys = d.keys := rfl
@[simp] theorem emit_supv (d : Dev) (o : Output) : (d.emit o).supv = d.supv := rfl
@[simp] theorem emit_flash (d : Dev) (o : Output) : (d.emit o).flash = d.flash := rfl
@[simp] theorem emit_spdm (d : Dev) (o : Output) : (d.emit o).spdm = d.spdm := rfl
@[simp] theorem emit_time (d : Dev) (o : Output) : (d.emit o).time = d.time := rfl
@[simp] theorem emit_uptime (d : Dev) (o : Output) : (d.emit o).uptime = d.uptime := rfl
@[simp] theorem emit_freeCtr (d : Dev) (o : Output) : (d.emit o).freeCtr = d.freeCtr := rfl
@[simp] theorem emit_otpc (d : Dev) (o : Output) : (d.emit o).otpc = d.otpc := rfl

end Sys2Proof.Machine
end

