-- ==== Sys2Proof/Laws/Ops.lean ====
section
/-! SUPPORT. What the shared operations do, said once: sparse maps, stored registers, events, the journal. -/

namespace Sys2Proof.Machine

/-! ### Sparse maps -/

section maps
variable {β : Type}

theorem smGet_cons (e : Nat × β) (m : SMap β) (k : Nat) : smGet (e :: m) k = if e.1 = k then some e.2 else smGet m k := by
  by_cases h : e.1 = k <;> simp [smGet, h, beq_eq_false_iff_ne.mpr]

@[simp] theorem smGet_smSet (m : SMap β) (k : Nat) (v : β) : smGet (smSet m k v) k = some v := by
  induction m with
  | nil => simp [smSet, smGet_cons]
  | cons e m ih =>
    simp only [smSet]
    split
    · simp [smGet_cons]
    · split
      · simp [smGet_cons]
      · rename_i h1 h2
        simp [smGet_cons, ih, Ne.symm h2]

theorem smGet_smSet_ne (m : SMap β) {j k : Nat} (v : β) (n : j ≠ k) : smGet (smSet m k v) j = smGet m j := by
  induction m with
  | nil => simp [smSet, smGet_cons, Ne.symm n]
  | cons e m ih =>
    simp only [smSet]
    split
    · simp [smGet_cons, Ne.symm n]
    · split
      · rename_i h1 h2
        simp [smGet_cons, Ne.symm n, ← h2]
      · simp [smGet_cons, ih]

@[simp] theorem smGet_smDel (m : SMap β) (k : Nat) : smGet (smDel m k) k = none := by
  simp only [smGet, smDel, Option.map_eq_none_iff, List.find?_eq_none]
  intro x hx
  simpa using (List.mem_filter.mp hx).2

theorem smGet_smDel_ne (m : SMap β) {j k : Nat} (n : j ≠ k) : smGet (smDel m k) j = smGet m j := by
  induction m with
  | nil => rfl
  | cons e m ih =>
    by_cases h : e.1 = k
    · have : smDel (e :: m) k = smDel m k := by simp [smDel, h]
      rw [this, ih, smGet_cons, if_neg (by omega)]
    · have : smDel (e :: m) k = e :: smDel m k := by simp [smDel, h]
      rw [this, smGet_cons, smGet_cons, ih]

theorem smGetD_smPut [DecidableEq β] (m : SMap β) (k : Nat) (d v : β) : smGetD (smPut m k d v) k d = v := by
  unfold smPut smGetD
  split <;> simp_all

theorem smGet_smPut_ne [DecidableEq β] (m : SMap β) {j k : Nat} (d v : β) (n : j ≠ k) : smGet (smPut m k d v) j = smGet m j := by
  unfold smPut
  split
  · exact smGet_smDel_ne m n
  · exact smGet_smSet_ne m v n

/-- Strictly rising keys, as a list property. -/
theorem smWf_cons (e : Nat × β) (m : SMap β) : smWf (e :: m) = true ↔ (∀ f ∈ m, e.1 < f.1) ∧ smWf m = true := by
  simp [smWf]

theorem mem_smSet {m : SMap β} {k : Nat} {v : β} {f : Nat × β} (h : f ∈ smSet m k v) : f.1 = k ∨ f ∈ m := by
  induction m with
  | nil => simp [smSet] at h; simp [h]
  | cons e m ih =>
    simp only [smSet] at h
    split at h
    · simp only [List.mem_cons] at h ⊢
      rcases h with rfl | h | h
      · exact .inl rfl
      · exact .inr (.inl h)
      · exact .inr (.inr h)
    · split at h
      · simp only [List.mem_cons] at h ⊢
        rcases h with rfl | h
        · exact .inl rfl
        · exact .inr (.inr h)
      · simp only [List.mem_cons] at h ⊢
        rcases h with rfl | h
        · exact .inr (.inl rfl)
        · exact (ih h).imp id .inr

theorem smWf_smSet {m : SMap β} (w : smWf m = true) (k : Nat) (v : β) : smWf (smSet m k v) = true := by
  induction m with
  | nil => rfl
  | cons e m ih =>
    have ⟨hl, hw⟩ := (smWf_cons e m).mp w
    simp only [smSet]
    split
    · rename_i hk
      refine (smWf_cons _ _).mpr ⟨fun f hf => ?_, w⟩
      rcases List.mem_cons.mp hf with rfl | hf
      · exact hk
      · exact Nat.lt_trans hk (hl f hf)
    · split
      · rename_i _ hk
        exact (smWf_cons _ _).mpr ⟨fun f hf => hk ▸ hl f hf, hw⟩
      · refine (smWf_cons _ _).mpr ⟨fun f hf => ?_, ih hw⟩
        rcases mem_smSet hf with h | h
        · show e.1 < f.1
          omega
        · exact hl f h

theorem smWf_smDel {m : SMap β} (w : smWf m = true) (k : Nat) : smWf (smDel m k) = true := by
  induction m with
  | nil => rfl
  | cons e m ih =>
    have ⟨hl, hw⟩ := (smWf_cons e m).mp w
    simp only [smDel, List.filter_cons]
    split
    · exact (smWf_cons _ _).mpr ⟨fun f hf => hl f (List.mem_filter.mp hf).1, ih hw⟩
    · exact ih hw

theorem smWf_smPut [DecidableEq β] {m : SMap β} (w : smWf m = true) (k : Nat) (d v : β) : smWf (smPut m k d v) = true := by
  unfold smPut
  split
  · exact smWf_smDel w k
  · exact smWf_smSet w k v

end maps

/-! ### Stored registers -/

/-- A stored word reads as what was stored. -/
@[simp] theorem reg_setReg (d : Dev) (h : Half) (p o v : Nat) : (d.setReg h p o v).reg h p o = BitVec.ofNat 32 v := by
  have := smGetD_smPut (d.half h).ctl.regs (regKey p o) (resetWord h (d.half h).strap.eff.toNat p o) (BitVec.ofNat 32 v)
  simpa [Dev.reg, Dev.setReg, smGetD] using this

/-- Another word of the half keeps its value. -/
theorem reg_setReg_key (d : Dev) (h : Half) {p o q r : Nat} (v : Nat) (n : regKey q r ≠ regKey p o) :
    (d.setReg h p o v).reg h q r = d.reg h q r := by
  simp [Dev.reg, Dev.setReg, smGet_smPut_ne _ _ _ n]

/-- A word of the other half keeps its value. -/
theorem reg_setReg_half (d : Dev) {h k : Half} (p o q r v : Nat) (n : k ≠ h) : (d.setReg h p o v).reg k q r = d.reg k q r := by
  simp [Dev.reg, Dev.setReg, upd_half_ne d _ n]

/-- A stored word changes the register store and nothing else. -/
theorem setReg_frame (d : Dev) (h k : Half) (p o v : Nat) :
    (d.setReg h p o v).half k = { d.half k with ctl := { (d.half k).ctl with regs := ((d.setReg h p o v).half k).ctl.regs } } := by
  cases h <;> cases k <;> rfl
@[simp] theorem setReg_out (d : Dev) (h : Half) (p o v : Nat) : (d.setReg h p o v).out = d.out := upd_out d h _
@[simp] theorem setReg_cast (d : Dev) (h : Half) (p o v : Nat) : (d.setReg h p o v).cast = d.cast := upd_cast d h _
@[simp] theorem setReg_supv (d : Dev) (h : Half) (p o v : Nat) : (d.setReg h p o v).supv = d.supv := upd_supv d h _
@[simp] theorem setReg_keys (d : Dev) (h : Half) (p o v : Nat) : (d.setReg h p o v).keys = d.keys := upd_keys d h _

/-! ### Events (R349) -/

/-- Raising an event sets its `EV_RAW` bit. -/
theorem raiseBit_evRaw (d : Dev) (h : Half) (p b a0 a1 : Nat) :
    (d.raiseBit h p b a0 a1).evRaw h p = d.evRaw h p ||| BitVec.twoPow 64 b := by
  have g : ∀ x : Dev, (x.setEvRaw h p (d.evRaw h p ||| BitVec.twoPow 64 b)).evRaw h p = d.evRaw h p ||| BitVec.twoPow 64 b := by
    intro x; simp [Dev.evRaw, Dev.setEvRaw, smGetD_smPut]
  simp only [Dev.raiseBit, Dev.evDeliver]
  split
  · split <;> simp [Dev.evRaw, Dev.evRecord, Dev.setEvRaw, smGetD_smPut]
  · simp [Dev.evRaw, Dev.evRecord, Dev.setEvRaw, smGetD_smPut]

/-- Raising an event changes the half's raw bits, its event ring and what is sent, and nothing else. -/
theorem raiseBit_half (d : Dev) (h k : Half) (p b a0 a1 : Nat) :
    (d.raiseBit h p b a0 a1).half k = { d.half k with ctl := { (d.half k).ctl with
      evRaw := ((d.raiseBit h p b a0 a1).half k).ctl.evRaw
      evRing := ((d.raiseBit h p b a0 a1).half k).ctl.evRing
      evSeq := ((d.raiseBit h p b a0 a1).half k).ctl.evSeq } } := by
  simp only [Dev.raiseBit, Dev.evDeliver]
  split
  · split <;> cases h <;> cases k <;> rfl
  · cases h <;> cases k <;> rfl

/-- An event leaves every stored register and its fields. -/
@[simp] theorem raiseBit_reg (d : Dev) (h k : Half) (p b a0 a1 q r : Nat) : (d.raiseBit h p b a0 a1).reg k q r = d.reg k q r := by
  have e := raiseBit_half d h k p b a0 a1
  unfold Dev.reg
  rw [e]
@[simp] theorem raise_reg (d : Dev) (h k : Half) (p : Nat) (e : Ev) (a0 a1 q r : Nat) : (d.raise h p e a0 a1).reg k q r = d.reg k q r :=
  raiseBit_reg d h k p e.bit a0 a1 q r
@[simp] theorem raise_fld (d : Dev) (h k : Half) (p : Nat) (e : Ev) (a0 a1 q r hi lo : Nat) :
    (d.raise h p e a0 a1).fld k q r hi lo = d.fld k q r hi lo := by
  simp only [Dev.fld, raise_reg]

end Sys2Proof.Machine
end

