-- ==== Sys2Proof/Laws/Stores.lean ====
section
/-! SUPPORT. What leaves a half's tiles and keys as they are: one lemma for each operation of registers, events, the journal, the
Ford's messages, mailboxes, fences and SPDM. -/

namespace Sys2Proof.Machine

/-! ### What leaves the stores -/

/-- A change of a half that keeps what it stores. -/
theorem stores_upd (d : Dev) (h : Half) (f : HalfState → HalfState) (q : ∀ x, (f x).stores = x.stores) : (d.upd h f).stores = d.stores := by
  cases h <;> simp only [Dev.stores, Dev.upd, Dev.setHalf, Dev.half, q]
/-- The same for two devices with the same halves. -/
theorem stores_of {d e : Dev} (w : e.west = d.west) (a : e.east = d.east) : e.stores = d.stores := by simp only [Dev.stores, w, a]
theorem stores_foldl {β : Type} (f : Dev → β → Dev) (q : ∀ d x, (f d x).stores = d.stores) (L : List β) (d : Dev) :
    (L.foldl f d).stores = d.stores := by
  induction L generalizing d with
  | nil => rfl
  | cons x L ih => rw [List.foldl_cons, ih, q]
theorem stores_eachHalf (f : Dev → Half → Dev) (q : ∀ d h, (f d h).stores = d.stores) (d : Dev) : (d.eachHalf f).stores = d.stores :=
  stores_foldl f q _ d
@[simp] theorem stores_emit (d : Dev) (o : Output) : (d.emit o).stores = d.stores := rfl
@[simp] theorem stores_updLd (d : Dev) (h : Half) (c : Nat) (f : LdCtx → LdCtx) : (d.updLd h c f).stores = d.stores :=
  stores_upd _ _ _ fun _ => rfl
@[simp] theorem stores_setReg (d : Dev) (h : Half) (p o v : Nat) : (d.setReg h p o v).stores = d.stores := stores_upd _ _ _ fun _ => rfl
@[simp] theorem stores_setReg64 (d : Dev) (h : Half) (p o v : Nat) : (d.setReg64 h p o v).stores = d.stores := by
  simp only [Dev.setReg64, stores_setReg]
@[simp] theorem stores_sat (d : Dev) (h : Half) (p o n : Nat) : (d.sat h p o n).stores = d.stores := stores_setReg ..
@[simp] theorem stores_wrap64 (d : Dev) (h : Half) (p o n : Nat) : (d.wrap64 h p o n).stores = d.stores := stores_setReg64 ..
@[simp] theorem stores_chartPut (d : Dev) (h : Half) (ws : List (Nat × Word)) : (d.chartPut h ws).stores = d.stores :=
  stores_upd _ _ _ fun _ => rfl
@[simp] theorem stores_raiseBit (d : Dev) (h : Half) (p b x y : Nat) : (d.raiseBit h p b x y).stores = d.stores := by
  have a := raiseBit_half d h .west p b x y
  have e := raiseBit_half d h .east p b x y
  simp only [Dev.half] at a e
  simp only [Dev.stores]; rw [a, e]; rfl
@[simp] theorem stores_raise (d : Dev) (h : Half) (p : Nat) (e : Ev) (x y : Nat) : (d.raise h p e x y).stores = d.stores :=
  stores_raiseBit ..
@[simp] theorem stores_jAppend (d : Dev) (h : Half) (e : JEntry) : (d.jAppend h e).stores = d.stores := by
  simp only [Dev.jAppend]; split
  · split
    · refine stores_upd d h _ ?_; intro x; rfl
    · rfl
  · split
    · rw [stores_raise, stores_sat]; refine stores_upd d h _ ?_; intro x; rfl
    · refine stores_upd d h _ ?_; intro x; rfl
@[simp] theorem stores_journal (d : Dev) (org : Origin) (h : Half) (p o r : Nat) (old new : Word) (t : Nat) :
    (d.journal org h p o r old new t).stores = d.stores := by
  simp only [Dev.journal]; split
  · rw [stores_upd, stores_jAppend]; intro x; rfl
  · exact stores_jAppend ..
@[simp] theorem stores_journalCmd (d : Dev) (org : Origin) (h : Half) (p o v : Nat) (w : Bool) (r : Nat) :
    (d.journalCmd org h p o v w r).stores = d.stores := by
  simp only [Dev.journalCmd]; split <;> simp only [stores_journal]
@[simp] theorem stores_setGates (d : Dev) (h : Half) (g : BitVec 22) : (d.setGates h g).stores = d.stores := by
  simp only [Dev.setGates]; split
  · exact stores_upd _ _ _ fun _ => rfl
  · rfl
@[simp] theorem stores_wake (d : Dev) (h : Half) (i : Nat) : (d.wake h i).stores = d.stores := by
  simp only [Dev.wake]; split
  · exact stores_setGates ..
  · rfl
@[simp] theorem stores_evLatch (d : Dev) (h : Half) (c b : Nat) : (d.evLatch h c b).stores = d.stores := by
  simp only [Dev.evLatch]; split
  · rw [stores_emit, stores_updLd, stores_raiseBit]
  · rw [stores_updLd, stores_raiseBit]
@[simp] theorem stores_noteLd (d : Dev) (h : Half) (c : Nat) : (d.noteLd h c).stores = d.stores := by
  simp only [Dev.noteLd]; split
  · rfl
  · rw [stores_foldl, stores_updLd]
    intro d x; split
    · exact stores_evLatch ..
    · rfl
@[simp] theorem stores_note (d : Dev) : d.note.stores = d.stores :=
  stores_eachHalf _ (fun d h => stores_foldl _ (fun d c => stores_noteLd d h c) _ d) d
@[simp] theorem stores_logEvent (d : Dev) (h : Half) (c : Nat) (k : CxlEventKind) (a i : Nat) : (d.logEvent h c k a i).stores = d.stores := by
  simp only [Dev.logEvent]; split
  · exact stores_updLd ..
  · rw [stores_evLatch, stores_updLd]
@[simp] theorem stores_fordSend (d : Dev) (h : Half) (m : FordMsg) : (d.fordSend h m).stores = d.stores := by
  simp only [Dev.fordSend]; repeat' split
  all_goals first | rfl | exact stores_upd _ _ _ fun _ => rfl
@[simp] theorem stores_fordAck (d : Dev) (h : Half) : (d.fordAck h).stores = d.stores := by
  simp only [Dev.fordAck]
  rw [stores_upd, stores_upd] <;> intro x <;> rfl
theorem stores_fordTake {d e : Dev} {h : Half} {c : Nat} {p : FordMsg → Bool} {m : FordMsg} (q : d.fordTake h c p = some (m, e)) :
    e.stores = d.stores := by
  simp only [Dev.fordTake] at q
  split at q
  · cases q
  · split at q
    · cases q
    · split at q
      · cases q; rw [stores_fordAck]; rw [stores_upd, stores_upd] <;> intro x <;> rfl
      · cases q
@[simp] theorem stores_refuse (d : Dev) (org : Origin) (h : Half) (p o : Nat) (v : Word) : (d.refuse org h p o v).stores = d.stores :=
  stores_journal ..
@[simp] theorem stores_applyGate (d : Dev) (g : Gate) (org : Origin) (e h : Half) (p o : Nat) (v : Word) :
    (d.applyGate g org e h p o v).stores = d.stores := by
  cases g <;> simp [Dev.applyGate]
@[simp] theorem stores_accWait (d : Dev) (h : Half) (as : List Access) : (d.accWait h as).stores = d.stores := stores_upd _ _ _ fun _ => rfl
@[simp] theorem stores_accSend (d : Dev) (h : Half) (org : Origin) (m : FordMsg) : (d.accSend h org m).stores = d.stores := by
  simp only [Dev.accSend]; rw [stores_upd, stores_fordSend]; intro x; rfl
/-- A register command leaves the stores where its act and its refusal do. -/
theorem stores_command (d : Dev) (org : Origin) (h : Half) (p o v : Nat) (act : Dev → Option Dev) (w j : Bool) (no : Dev → Dev)
    (q : ∀ d e, act d = some e → e.stores = d.stores) (r : ∀ d, (no d).stores = d.stores) :
    (d.command org h p o v act w j no).stores = d.stores := by
  simp only [Dev.command]; repeat' split
  · exact stores_accWait ..
  · exact stores_accWait ..
  · rw [stores_accSend, stores_accSend]
  · exact stores_accSend ..
  simp only [Dev.localCommand]; split
  · split
    · exact stores_journalCmd ..
    · split
      · rename_i e x; rw [q _ _ x]; split <;> simp only [stores_journalCmd, stores_wake]
      · rw [r]; split <;> simp only [stores_journalCmd, stores_wake]
  · exact stores_applyGate ..
theorem stores_mbox (d : Dev) (h : Half) (c op : Nat) (f : Dev → Nat × List Nat × Dev) (q : ∀ d, (f d).2.2.stores = d.stores) :
    (d.mbox h c op f).stores = d.stores := by
  simp only [Dev.mbox]; split
  · rfl
  · rw [stores_emit, q]
@[simp] theorem stores_mboxRead (d : Dev) (h : Half) (c op : Nat) (f : Dev → List Nat) : (d.mboxRead h c op f).stores = d.stores :=
  stores_mbox _ _ _ _ _ fun _ => rfl
@[simp] theorem stores_updPort (d : Dev) (h : Half) (p : Nat) (f : PortHalf → PortHalf) : (d.updPort h p f).stores = d.stores :=
  stores_upd _ _ _ fun _ => rfl
@[simp] theorem stores_eachPwr (d : Dev) (f : PwrHalf → PwrHalf) : (d.eachPwr f).stores = d.stores :=
  stores_eachHalf (fun d h => d.upd h fun x => { x with pwr := f x.pwr }) (fun _ _ => stores_upd _ _ _ fun _ => rfl) d
@[simp] theorem stores_fordBoth (d : Dev) (f : FordHalf → FordHalf) : (d.fordBoth f).stores = d.stores :=
  stores_eachHalf (fun d h => d.upd h fun x => { x with ford := f x.ford }) (fun _ _ => stores_upd _ _ _ fun _ => rfl) d
@[simp] theorem stores_fordRaise (d : Dev) (e : Ev) : (d.fordRaise e).stores = d.stores :=
  stores_eachHalf _ (fun _ _ => stores_raise ..) d
@[simp] theorem stores_fordRetrain (d : Dev) (ms : List Nat) : (d.fordRetrain ms).stores = d.stores := by
  simp only [Dev.fordRetrain, stores_fordRaise, stores_fordBoth]
@[simp] theorem stores_setWords (d : Dev) (h : Half) (p o n v : Nat) : (d.setWords h p o n v).stores = d.stores :=
  stores_foldl _ (fun _ _ => stores_setReg ..) _ d
@[simp] theorem stores_fenceRecord (d : Dev) (h : Half) (c a b e : Nat) (w : Word) : (d.fenceRecord h c a b e w).stores = d.stores := by
  simp only [Dev.fenceRecord, stores_emit, stores_updLd]
@[simp] theorem stores_fenceDone (d : Dev) (h : Half) (c a b e : Nat) (w : Word) : (d.fenceDone h c a b e w).stores = d.stores := by
  simp only [Dev.fenceDone]; repeat' split
  all_goals simp only [stores_raise, stores_emit, stores_updLd, stores_fenceRecord]
@[simp] theorem stores_fencesLd (h : Half) (c : Nat) (fs : List Fence) (d : Dev) : (Dev.fencesLd h c fs d).stores = d.stores := by
  induction fs generalizing d with
  | nil => rfl
  | cons f fs ih =>
    simp only [Dev.fencesLd]; split
    · rw [ih, stores_fenceDone, stores_updLd]
    · rfl
@[simp] theorem stores_ringFence (d : Dev) (h : Half) (c : Nat) (w : Word) : (d.ringFence h c w).stores = d.stores := by
  simp only [Dev.ringFence]; split
  · rw [stores_fenceDone, stores_updLd]
  · rw [stores_fencesLd, stores_updLd, stores_updLd]
@[simp] theorem stores_spdmError (d : Dev) (r c : Nat) : (d.spdmError r c).stores = d.stores := rfl
@[simp] theorem stores_spdmSend (d : Dev) (r c : Nat) (p : List Byte) : (d.spdmSend r c p).stores = d.stores := by
  simp only [Dev.spdmSend]; split <;> rfl
theorem stores_spdmReq (d : Dev) (r : Nat) (f : Dev → Spdm → Dev) (q : ∀ d x, (f d x).stores = d.stores) :
    (d.spdmReq r f).stores = d.stores := by
  simp only [Dev.spdmReq]; repeat' split
  all_goals first | rfl | (rw [q]; rfl)
theorem stores_spdmReady (d : Dev) (r : Nat) (f : Dev → Dev) (q : ∀ d, (f d).stores = d.stores) : (d.spdmReady r f).stores = d.stores :=
  stores_spdmReq _ _ _ fun d x => by
    split
    · exact q d
    · rfl
end Sys2Proof.Machine
end

