-- ==== Sys2Proof/WellFormed.lean ====
section
/-! DEFINITION. Well-formed commands: every operand that names one of a fixed number of things names one that exists. The
meanings are total without it; an operand outside its range changes nothing or is taken as its low bits. -/

namespace Sys2Proof

/-- An origin that exists (R345, R355): 22 islands, 8 host ports, 128 LDs, 16 firmware agents a half. -/
def Origin.wf : Origin → Bool
  | .hw i => decide (i < 22)
  | .host g => decide (g < 8)
  | .ld n => decide (n < 128)
  | .bmc _ => true
  | .fw _ a => decide (a < 16)

/-- Operands within their ranges. -/
def Instr.wf : Instr → Bool
  | .hostRead _ port sub ldid _ _ => decide (port < 4) && decide (sub < 4) && decide (ldid < 16)
  | .hostWrite _ port sub ldid _ _ _ => decide (port < 4) && decide (sub < 4) && decide (ldid < 16)
  | .hostPartialWrite _ port sub ldid _ _ _ _ => decide (port < 4) && decide (sub < 4) && decide (ldid < 16)
  | .manifestEntryFetchDone _ _ _ _ _ => true
  | .dramReadDone _ _ => true
  | .healWriteback _ => true
  | .fordFlitBad _ => true
  | .fordReplayRequest _ m => decide (m < 2)
  | .fordLaneRepair _ m => decide (m < 2)
  | .fordRetrainDone _ => true
  | .fordLost => true
  | .fordRetrainCmd org _ => org.wf
  | .fordModuleTrainDone m _ _ => decide (m < 2)
  | .fordTrainRetry _ => true
  | .sailingLengthElapsed _ => true
  | .beaconOpen _ => true
  | .beaconEcho _ => true
  | .reservationRecordDone _ => true
  | .sealReady _ => true
  | .fence org _ c _ => org.wf && decide (c < 64)
  | .fenceTimeout _ c => decide (c < 64)
  | .gpfPhase1 => true
  | .gpfPhase2 => true
  | .gpfLate => true
  | .acceptLocal org _ => org.wf
  | .memRd _ => true
  | .memWr _ => true
  | .memWrp _ => true
  | .memRdData _ => true
  | .memWrAck _ => true
  | .regRd _ => true
  | .regWr _ _ => true
  | .regResp _ _ => true
  | .mgmtHeartbeatTimer _ => true
  | .mgmtHeartbeat _ => true
  | .mgmtPeerLost _ => true
  | .mgmtWatchdog _ => true
  | .lockstepMismatch _ => true
  | .mgmtRestored _ => true
  | .restartPeer org _ => org.wf
  | .islandFault _ i => decide (i < 22)
  | .islandWakeDone _ i => decide (i < 22)
  | .islandResetDone _ i => decide (i < 22)
  | .alwaysOnSilent _ => true
  | .linkUp _ port sub _ _ _ => decide (port < 4) && decide (sub < 4)
  | .linkDown _ port sub => decide (port < 4) && decide (sub < 4)
  | .perstNAssert _ port => decide (port < 4)
  | .perstNDeassert _ port => decide (port < 4)
  | .hotReset _ port sub => decide (port < 4) && decide (sub < 4)
  | .cxlReset _ c => decide (c < 64)
  | .flr _ c => decide (c < 64)
  | .hdmDecoderCommit _ c i _ _ _ _ _ _ => decide (c < 64) && decide (i < 8)
  | .getEventRecords _ c _ => decide (c < 64)
  | .clearEventRecords _ c _ _ _ => decide (c < 64)
  | .getEventInterruptPolicy _ c => decide (c < 64)
  | .setEventInterruptPolicy _ c _ => decide (c < 64)
  | .getFwInfo _ c => decide (c < 64)
  | .getTimestamp _ c => decide (c < 64)
  | .setTimestamp _ c _ => decide (c < 64)
  | .getSupportedLogs _ c => decide (c < 64)
  | .getLog _ c _ _ _ => decide (c < 64)
  | .identifyMemoryDevice _ c => decide (c < 64)
  | .getPartitionInfo _ c => decide (c < 64)
  | .getDynamicCapacityConfiguration _ c => decide (c < 64)
  | .getDynamicCapacityExtentList _ c _ _ => decide (c < 64)
  | .dcAdd ld region _ => decide (ld < 128) && decide (region < 8)
  | .addDynamicCapacityResponse _ c _ => decide (c < 64)
  | .releaseDynamicCapacity _ c _ => decide (c < 64)
  | .dcReleaseEffect _ c => decide (c < 64)
  | .getLsa _ c _ _ => decide (c < 64)
  | .setLsa _ c _ _ => decide (c < 64)
  | .getHealthInfo _ c => decide (c < 64)
  | .getAlertConfiguration _ c => decide (c < 64)
  | .setAlertConfiguration _ c _ => decide (c < 64)
  | .getShutdownState _ c => decide (c < 64)
  | .setShutdownState _ c _ => decide (c < 64)
  | .getPoisonList _ c _ _ => decide (c < 64)
  | .injectPoison _ c _ => decide (c < 64)
  | .clearPoison _ c _ _ => decide (c < 64)
  | .getScanMediaCapabilities _ c _ _ => decide (c < 64)
  | .scanMedia _ c _ _ => decide (c < 64)
  | .scanMediaDone _ c => decide (c < 64)
  | .getScanMediaResults _ c => decide (c < 64)
  | .sanitize _ c => decide (c < 64)
  | .secureErase _ c => decide (c < 64)
  | .sanitizeWalkDone _ c => decide (c < 64)
  | .mailboxUnsupported _ c _ => decide (c < 64)
  | .cdatRequest _ c => decide (c < 64)
  | .evIrqWrite org _ c _ _ => org.wf && decide (c < 64)
  | .promotionReadDone _ _ => true
  | .promotionFrameWritten _ => true
  | .sinkStart _ => true
  | .sinkProgramDone _ t _ _ => decide (t < 2 ^ 35)
  | .eviction _ => true
  | .frameFormatted _ k => decide (k < 24)
  | .ageTick _ => true
  | .manifestCheckpoint _ => true
  | .streamOpen org _ c k => org.wf && decide (c < 64) && decide (k < 4)
  | .streamClose org _ c k => org.wf && decide (c < 64) && decide (k < 4)
  | .streamIdleClose _ c k => decide (c < 64) && decide (k < 4)
  | .pinTile org _ => org.wf
  | .unpinTile org _ => org.wf
  | .sinkTile org _ => org.wf
  | .evictTile org _ => org.wf
  | .retireFrame org _ => org.wf
  | .retireBank org _ => org.wf
  | .manfPeek org _ tile => org.wf && decide (tile < 2 ^ 35)
  | .scrubRead _ k _ _ _ _ _ => decide (k < 24)
  | .sramSweep _ _ _ _ => true
  | .repeatFilterExpiry _ => true
  | .lineRepairNandDone _ _ => true
  | .lineRecallAfterSeal _ => true
  | .repairHoldExpiry _ _ => true
  | .writeRaw org _ => org.wf
  | .writeEnc org _ => org.wf
  | .readDecode org _ => org.wf
  | .readRaw org _ => org.wf
  | .relocate org _ sub => org.wf && decide (sub < 32)
  | .sramInj org _ => org.wf
  | .scorSel org _ i => org.wf && decide (i < 256)
  | .scorAck org _ i => org.wf && decide (i < 256)
  | .refresh _ k => decide (k < 24)
  | .zqCalibration _ k => decide (k < 24)
  | .alertN _ c _ _ => decide (c < 12)
  | .caRetrainDone _ c _ _ => decide (c < 12)
  | .selfRefreshEntry _ k => decide (k < 24)
  | .freqSel org _ c v => org.wf && decide (c < 12) && decide (v < 2)
  | .freqChangeDone _ => true
  | .driftMeasure _ k _ => decide (k < 24)
  | .driftRetrainSlice _ k _ _ _ => decide (k < 24)
  | .dtrnWritePattern org _ c bursts rep => org.wf && decide (c < 12) && decide (bursts < 65536) && decide (rep < 256)
  | .dtrnReadCompare org _ c bursts rep => org.wf && decide (c < 12) && decide (bursts < 65536) && decide (rep < 256)
  | .dtrnWriteReadCompare org _ c bursts rep => org.wf && decide (c < 12) && decide (bursts < 65536) && decide (rep < 256)
  | .dtrnTrainingPatternRead org _ c bursts rep => org.wf && decide (c < 12) && decide (bursts < 65536) && decide (rep < 256)
  | .dtrnCsLoopback org _ c bursts rep => org.wf && decide (c < 12) && decide (bursts < 65536) && decide (rep < 256)
  | .dtrnCaLoopback org _ c bursts rep => org.wf && decide (c < 12) && decide (bursts < 65536) && decide (rep < 256)
  | .dtrnWriteLevelSample org _ c bursts rep => org.wf && decide (c < 12) && decide (bursts < 65536) && decide (rep < 256)
  | .dtrnGateSample org _ c bursts rep => org.wf && decide (c < 12) && decide (bursts < 65536) && decide (rep < 256)
  | .dtrnDqsOscillator org _ c bursts rep => org.wf && decide (c < 12) && decide (bursts < 65536) && decide (rep < 256)
  | .dtrnRunDone _ c _ _ => decide (c < 12)
  | .dtrnMrwWrite org _ c _ rank addr val => org.wf && decide (c < 12) && decide (rank < 16) && decide (addr < 256) && decide (val < 256)
  | .dtrnMrwRead org _ c _ rank addr => org.wf && decide (c < 12) && decide (rank < 16) && decide (addr < 256)
  | .preload org _ way => org.wf && decide (way < 16)
  | .lock org _ way => org.wf && decide (way < 16)
  | .unlock org _ way => org.wf && decide (way < 16)
  | .landCmdDone _ => true
  | .wayDisabled _ way => decide (way < 16)
  | .wayTallyExpiry _ way => decide (way < 16)
  | .drainDone _ => true
  | .evictionBufferFree _ => true
  | .ferryCodeword _ _ _ => true
  | .linkCtlDue _ => true
  | .linkCtl _ => true
  | .mirrorLines _ => true
  | .sailingClose _ => true
  | .sibVerified _ => true
  | .sailingApplyDone _ _ => true
  | .sailingAck _ => true
  | .lineRecallReq _ => true
  | .lineRecallResp _ => true
  | .tileStream _ => true
  | .tileStreamPull _ => true
  | .tileCaptureDone _ => true
  | .resyncBegin _ => true
  | .resyncWalkDone _ => true
  | .resyncEnd _ => true
  | .heartbeatTimer _ => true
  | .heartbeat _ => true
  | .twinLost _ => true
  | .rekeyInitial _ => true
  | .rekeyOffer _ => true
  | .rekeySwitch _ => true
  | .rekeySequenceDue _ => true
  | .rekeyTimeout _ => true
  | .keyEventLoadPhase _ => true
  | .keyEventErase _ => true
  | .keyEventRetire _ => true
  | .promote org _ => org.wf
  | .promoteRecordDone => true
  | .feryRekey org _ => org.wf
  | .resyncStart org _ => org.wf
  | .feryRetrain org _ => org.wf
  | .feryRetrainAckWait _ => true
  | .ferryLaneTrainingDone _ _ => true
  | .sessionUp _ _ _ _ _ _ _ => true
  | .ferryRetryTimer _ => true
  | .readTile _ isle ring _ => decide (isle < 4) && decide (ring < 4)
  | .programTile _ isle ring _ _ => decide (isle < 4) && decide (ring < 4)
  | .eraseBlock _ isle ring _ _ => decide (isle < 4) && decide (ring < 4)
  | .readPageRaw _ isle ring _ => decide (isle < 4) && decide (ring < 4)
  | .programPageRaw _ isle ring _ _ => decide (isle < 4) && decide (ring < 4)
  | .setFeature _ isle ring _ => decide (isle < 4) && decide (ring < 4)
  | .getParam _ isle ring _ => decide (isle < 4) && decide (ring < 4)
  | .nandOperationDone _ lun _ => decide (lun < 8192)
  | .nandSuspendDone _ lun => decide (lun < 8192)
  | .flashTimeout _ lun => decide (lun < 8192)
  | .eraseOverdue _ lun => decide (lun < 8192)
  | .flashChannelRetrain _ c => decide (c < 32)
  | .flashChannelTrainDone _ c _ _ => decide (c < 32)
  | .format org _ => org.wf
  | .formatDone _ _ _ _ _ _ => true
  | .diagGo org _ isle => org.wf && decide (isle < 4)
  | .establish org _ => org.wf
  | .keyLoad org _ slot _ => org.wf && decide (slot < 1024)
  | .keyGenerate org _ slot _ => org.wf && decide (slot < 1024)
  | .keySweep org _ slot => org.wf && decide (slot < 1024)
  | .keyErase org _ slot => org.wf && decide (slot < 1024)
  | .keyRetire org _ slot => org.wf && decide (slot < 1024)
  | .keySelect org _ slot => org.wf && decide (slot < 1024)
  | .loadDeferredApply => true
  | .keyEraseRecordDone slot => decide (slot < 1024)
  | .walkDone _ slot => decide (slot < 1024)
  | .sweepDone => true
  | .xtsEnc _ org _ _ => org.wf
  | .xtsDec _ org _ _ => org.wf
  | .cmacGen _ org _ _ => org.wf
  | .cmacVerify _ org _ _ => org.wf
  | .tileSeal _ org _ _ => org.wf
  | .tileOpen _ org _ _ => org.wf
  | .tileVerify _ org _ _ => org.wf
  | .wrap _ org _ _ => org.wf
  | .unwrap _ org _ _ => org.wf
  | .cipherRequestDone _ core _ => decide (core < 4)
  | .cipherAgeing _ => true
  | .coreFailed _ core => decide (core < 4)
  | .svnAdvance org _ arg _ => org.wf && decide (arg < 256)
  | .revokeSigner org _ arg _ => org.wf && decide (arg < 256)
  | .lcAdvance org _ arg _ => org.wf && decide (arg < 256)
  | .lockStrap org _ arg _ => org.wf && decide (arg < 256)
  | .bootMeasSel org _ i => org.wf && decide (i < 8)
  | .romBoot _ _ => true
  | .recoveryBoot _ _ => true
  | .transferFw _ => true
  | .activateFw _ => true
  | .getVersion _ => true
  | .getCapabilities _ => true
  | .negotiateAlgorithms _ _ _ => true
  | .getDigests _ => true
  | .getCertificate _ slot _ _ => decide (slot < 8)
  | .challenge _ slot _ => decide (slot < 8)
  | .getMeasurements _ _ _ => true
  | .setCertificate _ slot _ => decide (slot < 8)
  | .chunkSend _ _ _ => true
  | .chunkGet _ => true
  | .spdmStateTimeout _ => true
  | .pwrfailNFall => true
  | .pwrfailGlitch => true
  | .rideThroughExpiry => true
  | .powerDown org _ => org.wf
  | .powerOff org _ => org.wf
  | .lfFlushDone _ => true
  | .lfPushEnd _ => true
  | .lfEvacuateDone _ _ => true
  | .voyageRecordWritten _ _ _ => true
  | .rtcAlarm _ => true
  | .rtcAlarmWrite org _ _ => org.wf
  | .coldStart _ _ => true
  | .rearmDone _ => true
  | .ddrIdleGate _ i => decide (i < 22)
  | .reHoming _ => true
  | .registerWrite org _ page off _ _ _ => org.wf && decide (page < 4096) && decide (off < 4096 ∧ off % 4 = 0)
  | .castBegin org _ => org.wf
  | .castCommit org _ => org.wf
  | .castRollback org _ => org.wf
  | .castTimeout i => decide (i < 8)
  | .castBoundaryApply _ => true
  | .chartRecordDone i => decide (i < 8)
  | .jrnlSel org _ _ => org.wf
  | .jrnlEvSel org _ _ => org.wf
  | .journalSpill _ _ => true
  | .seqInRise => true
  | .inputLoss => true
  | .groupGood n _ _ => decide (n < 8)
  | .groupTimeout n rail => decide (n < 8) && decide (rail < 12)
  | .supplyFault _ rail _ => decide (rail < 12)
  | .railFallen n => decide (n < 8)
  | .fallSlow rail => decide (rail < 12)
  | .seqOutDelay => true
  | .supvRelease org _ => org.wf
  | .clrCounts org _ => org.wf
  | .supvCntSel org _ rail => org.wf && decide (rail < 12)
  | .counterFlush => true
  | .housekeepingRound _ _ _ _ _ _ _ => true
  | .thermalTrip _ _ _ => true
  | .resetNLow => true
  | .resetNHigh _ _ => true
  | .fordIdleFlit _ => true
  | .fordUp _ => true
  | .castPrepare _ => true
  | .castVote _ => true
  | .castApply _ => true
  | .ferryAlignmentBlock _ lane _ _ => decide (lane < 20)
  | .resyncWalkTile _ => true
  | .sweepWalkTile _ => true
  | .retirementCopyDone _ => true
  | .registerRead org _ page off => org.wf && decide (page < 4096) && decide (off < 4096 ∧ off % 4 = 0)
  | .bmcBusReset => true
  | .inputPowerReturn => true
  | .g0Good => true
  | .g0Removed => true
  | .spdmUnsupportedRequest _ => true
  | .setdasa _ _ => true

end Sys2Proof
end

