-- ==== Sys2Proof/Tests/Slice0.lean ====
section
/-! SUPPORT. The author's own tests: ill-formed commands that `Instr.wf` refuses and well-formed ones that it accepts, published
vectors of the cited standards, and for every statement with hypotheses a state and operands that meet them. Each test is
about one command on a small state. -/

namespace Sys2Proof.Tests
open Sys2Proof Sys2Proof.Machine

set_option Elab.async false

/-! ### States the tests share -/

/-- A half whose complex runs, with its islands out of reset and the Ford up. -/
def onHalf : HalfState := {
  boot := { running := true }
  pwr := { state := .on, inReset := 0, started := true }
  ford := { state := .upFull, up0 := true, up1 := true } }

/-- A device in service. -/
def run : Dev := {
  west := onHalf
  east := onHalf
  supv := { seq := .on, good := 0xFF, pg := 0xFF, en := 0xFF, seqIn := true, seqOut := true, resetN := true } }

/-- A state of that device, or of one changed from it, with nothing queued. -/
def st (d : Dev) : State := { State.reset with dev := d }

/-- A host at West's first port. -/
def host0 : Origin := .host 0

/-- A message at the head of what East has sent to West. -/
def sent (m : FordMsg) : Dev := run.upd .east fun x => { x with ford := { x.ford with txq := [m] } }

/-- LD 0 of West with 256 MiB from DPA 0, a committed decoder over it, and a link that serves. -/
def served0 : Dev := ((run.setReg .west (pgLDP 0) 0x050 1).updLd .west 0 fun x => { x with
  hdm := x.hdm.set 0 { size := 2 ^ 28, committed := true } }).updPort .west 0 fun q => { q with
    links := q.links.set 0 { cxlMem := true, up := true, speed := 0, width := 5 }, perstHigh := true }

/-- The device with DRAM: each of West's subchannels is up and has 65,536 frames in two ranks. -/
def dram0 (d : Dev) : Dev := d.upd .west fun x => { x with
  tier := { x.tier with backed := 2 ^ 20 }
  dram := { x.dram with
    trained := true
    chans := List.replicate 12 { dimms := 1, framesPerSub := 65536, ranks := 2, sub0 := { state := .up }, sub1 := { state := .up } } } }

/-- Change the tier of West. -/
def tier1 (d : Dev) (f : TierHalf → TierHalf) : Dev := d.upd .west fun x => { x with tier := f x.tier }

/-- Slot 0 of both halves holds keys in phase A. -/
def keyed (d : Dev) : Dev :=
  (d.updSlot .west 0 fun k => { k with state := .active, loadedA := true }).updSlot .east 0 fun k => { k with state := .active, loadedA := true }

/-- West's first NAND channel is up, with one LUN of two erased stripes. -/
def nand0 (d : Dev) : Dev := d.updFlash .west fun x => { x with
  isles := x.isles.set 0 { chans := [2, 0, 0, 0, 0, 0, 0, 0] }
  formatted := true, pages := 512, stripesPerLun := 2, luns := [0]
  stripes := [(0, { state := .erased }), (1, { state := .erased, erases := 1 })] }

/-- Tile 3 of West in a state, in frame 0. -/
def tile3 (s : TileState) (d : Dev) : Dev := d.setTile .west 3 { state := s, frame := 0 }

/-- A read of line 0 by LD 0's host. -/
def rd0 : Req := { src := .host .west 0 0 1, ld := 0, line := 0, kind := .read }

/-- West's Ferry link in a session, with keys of zeros, and slots received. -/
def recv (m : List (BitVec 256)) : Dev := run.updFery .west fun f => { f with link := .session, paired := true, keys := some { macTx := 0, macRx := 0, wrapTx := 0, wrapRx := 0 }, rxSlots := m }

/-- A header slot and data slots of zeros. -/
def msg (hd n : Nat) : List (BitVec 256) := BitVec.ofNat 256 hd :: List.replicate n 0

/-- A rekey whose new keys are known. -/
def rekeying (tx at' : Nat) : Dev := (recv []).updFery .west fun f => { f with rekey := some { epoch := 1, priv := 1, pub := [], nonce := [], newKeys := some { macTx := 1, macRx := 1, wrapTx := 1, wrapRx := 1 } }, txSeq := tx, rekeyAt := at' }

/-- West is the master and has opened sailing 5 at time 0. -/
def sailing5 (m : List FordMsg) (t : Nat) : Dev := { (run.upd .east fun x => { x with ford := { x.ford with txq := m }, sail := { x.sail with current := 5 } }).upd .west fun x => { x with sail := { x.sail with current := 5, reservePending := some 99 } } with time := t }

/-! ### Well-formed commands -/

/-- Each of these commands has one operand that is the first value past its range, and is refused. -/
theorem test_wf_refuses_1 : ([.hostRead .west 4 3 15 0 0, .hostRead .west 3 4 15 0 0, .hostRead .west 3 3 16 0 0, .hostWrite .west 4 3 15 0 0 0,
    .hostWrite .west 3 4 15 0 0 0, .hostWrite .west 3 3 16 0 0 0, .hostPartialWrite .west 4 3 15 0 0 0 0,
    .hostPartialWrite .west 3 4 15 0 0 0 0, .hostPartialWrite .west 3 3 16 0 0 0 0, .fordReplayRequest .west 2,
    .fordLaneRepair .west 2, .fordRetrainCmd (.host 8) .west, .fordModuleTrainDone 2 0 0, .fence (.host 8) .west 63 0,
    .fence (.host 7) .west 64 0, .fenceTimeout .west 64, .acceptLocal (.host 8) .west, .restartPeer (.host 8) .west,
    .islandFault .west 22, .islandWakeDone .west 22, .islandResetDone .west 22, .linkUp .west 4 3 0 0 false,
    .linkUp .west 3 4 0 0 false, .linkDown .west 4 3, .linkDown .west 3 4, .perstNAssert .west 4, .perstNDeassert .west 4,
    .hotReset .west 4 3, .hotReset .west 3 4, .cxlReset .west 64, .flr .west 64, .hdmDecoderCommit .west 64 7 0 0 0 0 0 false,
    .hdmDecoderCommit .west 63 8 0 0 0 0 0 false, .getEventRecords .west 64 0, .clearEventRecords .west 64 0 false [],
    .getEventInterruptPolicy .west 64, .setEventInterruptPolicy .west 64 0, .getFwInfo .west 64, .getTimestamp .west 64,
    .setTimestamp .west 64 0] : List Instr).all (fun i => !i.wf) = true := by decide

/-- Each of these commands has one operand that is the first value past its range, and is refused. -/
theorem test_wf_refuses_2 : ([.getSupportedLogs .west 64, .getLog .west 64 false 0 0, .identifyMemoryDevice .west 64, .getPartitionInfo .west 64,
    .getDynamicCapacityConfiguration .west 64, .getDynamicCapacityExtentList .west 64 0 0, .dcAdd 128 7 0, .dcAdd 127 8 0,
    .addDynamicCapacityResponse .west 64 [], .releaseDynamicCapacity .west 64 [], .dcReleaseEffect .west 64,
    .getLsa .west 64 0 0, .setLsa .west 64 0 [], .getHealthInfo .west 64, .getAlertConfiguration .west 64,
    .setAlertConfiguration .west 64 0, .getShutdownState .west 64, .setShutdownState .west 64 false, .getPoisonList .west 64 0 0,
    .injectPoison .west 64 0, .clearPoison .west 64 0 0, .getScanMediaCapabilities .west 64 0 0, .scanMedia .west 64 0 0,
    .scanMediaDone .west 64, .getScanMediaResults .west 64, .sanitize .west 64, .secureErase .west 64,
    .sanitizeWalkDone .west 64, .mailboxUnsupported .west 64 0, .cdatRequest .west 64, .evIrqWrite (.host 8) .west 63 0 0,
    .evIrqWrite (.host 7) .west 64 0 0, .sinkProgramDone .west 34359738368 false 0, .frameFormatted .west 24,
    .streamOpen (.host 8) .west 63 3, .streamOpen (.host 7) .west 64 3, .streamOpen (.host 7) .west 63 4,
    .streamClose (.host 8) .west 63 3, .streamClose (.host 7) .west 64 3, .streamClose (.host 7) .west 63 4] : List Instr).all (fun i => !i.wf) = true := by decide

/-- Each of these commands has one operand that is the first value past its range, and is refused. -/
theorem test_wf_refuses_3 : ([.streamIdleClose .west 64 3, .streamIdleClose .west 63 4, .pinTile (.host 8) .west, .unpinTile (.host 8) .west,
    .sinkTile (.host 8) .west, .evictTile (.host 8) .west, .retireFrame (.host 8) .west, .retireBank (.host 8) .west,
    .manfPeek (.host 8) .west 34359738367, .manfPeek (.host 7) .west 34359738368, .scrubRead .west 24 {} 0 0 0 0,
    .writeRaw (.host 8) .west, .writeEnc (.host 8) .west, .readDecode (.host 8) .west, .readRaw (.host 8) .west,
    .relocate (.host 8) .west 31, .relocate (.host 7) .west 32, .sramInj (.host 8) .west, .scorSel (.host 8) .west 255,
    .scorSel (.host 7) .west 256, .scorAck (.host 8) .west 255, .scorAck (.host 7) .west 256, .refresh .west 24,
    .zqCalibration .west 24, .alertN .west 12 false 0, .caRetrainDone .west 12 false false, .selfRefreshEntry .west 24,
    .freqSel (.host 8) .west 11 1, .freqSel (.host 7) .west 12 1, .freqSel (.host 7) .west 11 2, .driftMeasure .west 24 [],
    .driftRetrainSlice .west 24 false false [], .dtrnWritePattern (.host 8) .west 11 65535 255,
    .dtrnWritePattern (.host 7) .west 12 65535 255, .dtrnWritePattern (.host 7) .west 11 65536 255,
    .dtrnWritePattern (.host 7) .west 11 65535 256, .dtrnReadCompare (.host 8) .west 11 65535 255,
    .dtrnReadCompare (.host 7) .west 12 65535 255, .dtrnReadCompare (.host 7) .west 11 65536 255,
    .dtrnReadCompare (.host 7) .west 11 65535 256] : List Instr).all (fun i => !i.wf) = true := by decide

/-- Each of these commands has one operand that is the first value past its range, and is refused. -/
theorem test_wf_refuses_4 : ([.dtrnWriteReadCompare (.host 8) .west 11 65535 255, .dtrnWriteReadCompare (.host 7) .west 12 65535 255,
    .dtrnWriteReadCompare (.host 7) .west 11 65536 255, .dtrnWriteReadCompare (.host 7) .west 11 65535 256,
    .dtrnTrainingPatternRead (.host 8) .west 11 65535 255, .dtrnTrainingPatternRead (.host 7) .west 12 65535 255,
    .dtrnTrainingPatternRead (.host 7) .west 11 65536 255, .dtrnTrainingPatternRead (.host 7) .west 11 65535 256,
    .dtrnCsLoopback (.host 8) .west 11 65535 255, .dtrnCsLoopback (.host 7) .west 12 65535 255,
    .dtrnCsLoopback (.host 7) .west 11 65536 255, .dtrnCsLoopback (.host 7) .west 11 65535 256,
    .dtrnCaLoopback (.host 8) .west 11 65535 255, .dtrnCaLoopback (.host 7) .west 12 65535 255,
    .dtrnCaLoopback (.host 7) .west 11 65536 255, .dtrnCaLoopback (.host 7) .west 11 65535 256,
    .dtrnWriteLevelSample (.host 8) .west 11 65535 255, .dtrnWriteLevelSample (.host 7) .west 12 65535 255,
    .dtrnWriteLevelSample (.host 7) .west 11 65536 255, .dtrnWriteLevelSample (.host 7) .west 11 65535 256,
    .dtrnGateSample (.host 8) .west 11 65535 255, .dtrnGateSample (.host 7) .west 12 65535 255,
    .dtrnGateSample (.host 7) .west 11 65536 255, .dtrnGateSample (.host 7) .west 11 65535 256,
    .dtrnDqsOscillator (.host 8) .west 11 65535 255, .dtrnDqsOscillator (.host 7) .west 12 65535 255,
    .dtrnDqsOscillator (.host 7) .west 11 65536 255, .dtrnDqsOscillator (.host 7) .west 11 65535 256, .dtrnRunDone .west 12 [] 0,
    .dtrnMrwWrite (.host 8) .west 11 false 15 255 255, .dtrnMrwWrite (.host 7) .west 12 false 15 255 255,
    .dtrnMrwWrite (.host 7) .west 11 false 16 255 255, .dtrnMrwWrite (.host 7) .west 11 false 15 256 255,
    .dtrnMrwWrite (.host 7) .west 11 false 15 255 256, .dtrnMrwRead (.host 8) .west 11 false 15 255,
    .dtrnMrwRead (.host 7) .west 12 false 15 255, .dtrnMrwRead (.host 7) .west 11 false 16 255,
    .dtrnMrwRead (.host 7) .west 11 false 15 256, .preload (.host 8) .west 15, .preload (.host 7) .west 16] : List Instr).all (fun i => !i.wf) = true := by decide

/-- Each of these commands has one operand that is the first value past its range, and is refused. -/
theorem test_wf_refuses_5 : ([.lock (.host 8) .west 15, .lock (.host 7) .west 16, .unlock (.host 8) .west 15, .unlock (.host 7) .west 16,
    .wayDisabled .west 16, .wayTallyExpiry .west 16, .promote (.host 8) .west, .feryRekey (.host 8) .west,
    .resyncStart (.host 8) .west, .feryRetrain (.host 8) .west, .readTile .west 4 3 0, .readTile .west 3 4 0,
    .programTile .west 4 3 0 none, .programTile .west 3 4 0 none, .eraseBlock .west 4 3 false 0, .eraseBlock .west 3 4 false 0,
    .readPageRaw .west 4 3 0, .readPageRaw .west 3 4 0, .programPageRaw .west 4 3 0 [], .programPageRaw .west 3 4 0 [],
    .setFeature .west 4 3 0, .setFeature .west 3 4 0, .getParam .west 4 3 0, .getParam .west 3 4 0,
    .nandOperationDone .west 8192 ⟨false, 0, 0, 0, 0, 0, 0, 0, []⟩, .nandSuspendDone .west 8192, .flashTimeout .west 8192,
    .eraseOverdue .west 8192, .flashChannelRetrain .west 32, .flashChannelTrainDone .west 32 false 0, .format (.host 8) .west,
    .diagGo (.host 8) .west 3, .diagGo (.host 7) .west 4, .establish (.host 8) .west, .keyLoad (.host 8) .west 1023 false,
    .keyLoad (.host 7) .west 1024 false, .keyGenerate (.host 8) .west 1023 false, .keyGenerate (.host 7) .west 1024 false,
    .keySweep (.host 8) .west 1023, .keySweep (.host 7) .west 1024] : List Instr).all (fun i => !i.wf) = true := by decide

/-- Each of these commands has one operand that is the first value past its range, and is refused. -/
theorem test_wf_refuses_6 : ([.keyErase (.host 8) .west 1023, .keyErase (.host 7) .west 1024, .keyRetire (.host 8) .west 1023,
    .keyRetire (.host 7) .west 1024, .keySelect (.host 8) .west 1023, .keySelect (.host 7) .west 1024, .keyEraseRecordDone 1024,
    .walkDone .west 1024, .xtsEnc .west (.host 8) 0 [], .xtsDec .west (.host 8) 0 [], .cmacGen .west (.host 8) 0 [],
    .cmacVerify .west (.host 8) 0 [], .tileSeal .west (.host 8) 0 [], .tileOpen .west (.host 8) 0 [],
    .tileVerify .west (.host 8) 0 [], .wrap .west (.host 8) 0 [], .unwrap .west (.host 8) 0 [], .cipherRequestDone .west 4 0,
    .coreFailed .west 4, .svnAdvance (.host 8) .west 255 none, .svnAdvance (.host 7) .west 256 none,
    .revokeSigner (.host 8) .west 255 none, .revokeSigner (.host 7) .west 256 none, .lcAdvance (.host 8) .west 255 none,
    .lcAdvance (.host 7) .west 256 none, .lockStrap (.host 8) .west 255 none, .lockStrap (.host 7) .west 256 none,
    .bootMeasSel (.host 8) .west 7, .bootMeasSel (.host 7) .west 8, .getCertificate 0 8 0 0, .challenge 0 8 false,
    .setCertificate 0 8 [], .powerDown (.host 8) .west, .powerOff (.host 8) .west, .rtcAlarmWrite (.host 8) .west 0,
    .ddrIdleGate .west 22, .registerWrite (.host 8) .west 4095 4092 0 false none,
    .registerWrite (.host 7) .west 4096 4092 0 false none, .registerWrite (.host 7) .west 4095 4096 0 false none,
    .registerWrite (.host 7) .west 4095 4094 0 false none] : List Instr).all (fun i => !i.wf) = true := by decide

/-- Each of these commands has one operand that is the first value past its range, and is refused. -/
theorem test_wf_refuses_7 : ([.castBegin (.host 8) .west, .castCommit (.host 8) .west, .castRollback (.host 8) .west, .castTimeout 8, .chartRecordDone 8,
    .jrnlSel (.host 8) .west 0, .jrnlEvSel (.host 8) .west 0, .groupGood 8 0 0, .groupTimeout 8 11, .groupTimeout 7 12,
    .supplyFault .west 12 0, .railFallen 8, .fallSlow 12, .supvRelease (.host 8) .west, .clrCounts (.host 8) .west,
    .supvCntSel (.host 8) .west 11, .supvCntSel (.host 7) .west 12, .ferryAlignmentBlock .west 20 0 0,
    .registerRead (.host 8) .west 4095 4092, .registerRead (.host 7) .west 4096 4092, .registerRead (.host 7) .west 4095 4096,
    .registerRead (.host 7) .west 4095 4094] : List Instr).all (fun i => !i.wf) = true := by decide

/-- Commands whose checked operands are the last ones of their ranges are accepted. -/
theorem test_wf_accepts_1 : ([.hostRead .west 3 3 15 0 0, .hostWrite .west 3 3 15 0 0 0, .hostPartialWrite .west 3 3 15 0 0 0 0,
    .fordReplayRequest .west 1, .fordLaneRepair .west 1, .fordRetrainCmd (.host 7) .west, .fordModuleTrainDone 1 0 0,
    .fence (.host 7) .west 63 0, .fenceTimeout .west 63, .acceptLocal (.host 7) .west, .restartPeer (.host 7) .west,
    .islandFault .west 21, .islandWakeDone .west 21, .islandResetDone .west 21, .linkUp .west 3 3 0 0 false, .linkDown .west 3 3,
    .perstNAssert .west 3, .perstNDeassert .west 3, .hotReset .west 3 3, .cxlReset .west 63, .flr .west 63,
    .hdmDecoderCommit .west 63 7 0 0 0 0 0 false, .getEventRecords .west 63 0, .clearEventRecords .west 63 0 false [],
    .getEventInterruptPolicy .west 63, .setEventInterruptPolicy .west 63 0, .getFwInfo .west 63, .getTimestamp .west 63,
    .setTimestamp .west 63 0, .getSupportedLogs .west 63, .getLog .west 63 false 0 0, .identifyMemoryDevice .west 63,
    .getPartitionInfo .west 63, .getDynamicCapacityConfiguration .west 63, .getDynamicCapacityExtentList .west 63 0 0,
    .dcAdd 127 7 0, .addDynamicCapacityResponse .west 63 [], .releaseDynamicCapacity .west 63 [], .dcReleaseEffect .west 63,
    .getLsa .west 63 0 0] : List Instr).all (fun i => i.wf) = true := by decide

/-- Commands whose checked operands are the last ones of their ranges are accepted. -/
theorem test_wf_accepts_2 : ([.setLsa .west 63 0 [], .getHealthInfo .west 63, .getAlertConfiguration .west 63, .setAlertConfiguration .west 63 0,
    .getShutdownState .west 63, .setShutdownState .west 63 false, .getPoisonList .west 63 0 0, .injectPoison .west 63 0,
    .clearPoison .west 63 0 0, .getScanMediaCapabilities .west 63 0 0, .scanMedia .west 63 0 0, .scanMediaDone .west 63,
    .getScanMediaResults .west 63, .sanitize .west 63, .secureErase .west 63, .sanitizeWalkDone .west 63,
    .mailboxUnsupported .west 63 0, .cdatRequest .west 63, .evIrqWrite (.host 7) .west 63 0 0,
    .sinkProgramDone .west 34359738367 false 0, .frameFormatted .west 23, .streamOpen (.host 7) .west 63 3,
    .streamClose (.host 7) .west 63 3, .streamIdleClose .west 63 3, .pinTile (.host 7) .west, .unpinTile (.host 7) .west,
    .sinkTile (.host 7) .west, .evictTile (.host 7) .west, .retireFrame (.host 7) .west, .retireBank (.host 7) .west,
    .manfPeek (.host 7) .west 34359738367, .scrubRead .west 23 {} 0 0 0 0, .writeRaw (.host 7) .west, .writeEnc (.host 7) .west,
    .readDecode (.host 7) .west, .readRaw (.host 7) .west, .relocate (.host 7) .west 31, .sramInj (.host 7) .west,
    .scorSel (.host 7) .west 255, .scorAck (.host 7) .west 255] : List Instr).all (fun i => i.wf) = true := by decide

/-- Commands whose checked operands are the last ones of their ranges are accepted. -/
theorem test_wf_accepts_3 : ([.refresh .west 23, .zqCalibration .west 23, .alertN .west 11 false 0, .caRetrainDone .west 11 false false,
    .selfRefreshEntry .west 23, .freqSel (.host 7) .west 11 1, .driftMeasure .west 23 [],
    .driftRetrainSlice .west 23 false false [], .dtrnWritePattern (.host 7) .west 11 65535 255,
    .dtrnReadCompare (.host 7) .west 11 65535 255, .dtrnWriteReadCompare (.host 7) .west 11 65535 255,
    .dtrnTrainingPatternRead (.host 7) .west 11 65535 255, .dtrnCsLoopback (.host 7) .west 11 65535 255,
    .dtrnCaLoopback (.host 7) .west 11 65535 255, .dtrnWriteLevelSample (.host 7) .west 11 65535 255,
    .dtrnGateSample (.host 7) .west 11 65535 255, .dtrnDqsOscillator (.host 7) .west 11 65535 255, .dtrnRunDone .west 11 [] 0,
    .dtrnMrwWrite (.host 7) .west 11 false 15 255 255, .dtrnMrwRead (.host 7) .west 11 false 15 255, .preload (.host 7) .west 15,
    .lock (.host 7) .west 15, .unlock (.host 7) .west 15, .wayDisabled .west 15, .wayTallyExpiry .west 15,
    .promote (.host 7) .west, .feryRekey (.host 7) .west, .resyncStart (.host 7) .west, .feryRetrain (.host 7) .west,
    .readTile .west 3 3 0, .programTile .west 3 3 0 none, .eraseBlock .west 3 3 false 0, .readPageRaw .west 3 3 0,
    .programPageRaw .west 3 3 0 [], .setFeature .west 3 3 0, .getParam .west 3 3 0,
    .nandOperationDone .west 8191 ⟨false, 0, 0, 0, 0, 0, 0, 0, []⟩, .nandSuspendDone .west 8191, .flashTimeout .west 8191,
    .eraseOverdue .west 8191] : List Instr).all (fun i => i.wf) = true := by decide

/-- Commands whose checked operands are the last ones of their ranges are accepted. -/
theorem test_wf_accepts_4 : ([.flashChannelRetrain .west 31, .flashChannelTrainDone .west 31 false 0, .format (.host 7) .west, .diagGo (.host 7) .west 3,
    .establish (.host 7) .west, .keyLoad (.host 7) .west 1023 false, .keyGenerate (.host 7) .west 1023 false,
    .keySweep (.host 7) .west 1023, .keyErase (.host 7) .west 1023, .keyRetire (.host 7) .west 1023,
    .keySelect (.host 7) .west 1023, .keyEraseRecordDone 1023, .walkDone .west 1023, .xtsEnc .west (.host 7) 0 [],
    .xtsDec .west (.host 7) 0 [], .cmacGen .west (.host 7) 0 [], .cmacVerify .west (.host 7) 0 [],
    .tileSeal .west (.host 7) 0 [], .tileOpen .west (.host 7) 0 [], .tileVerify .west (.host 7) 0 [], .wrap .west (.host 7) 0 [],
    .unwrap .west (.host 7) 0 [], .cipherRequestDone .west 3 0, .coreFailed .west 3, .svnAdvance (.host 7) .west 255 none,
    .revokeSigner (.host 7) .west 255 none, .lcAdvance (.host 7) .west 255 none, .lockStrap (.host 7) .west 255 none,
    .bootMeasSel (.host 7) .west 7, .getCertificate 0 7 0 0, .challenge 0 7 false, .setCertificate 0 7 [],
    .powerDown (.host 7) .west, .powerOff (.host 7) .west, .rtcAlarmWrite (.host 7) .west 0, .ddrIdleGate .west 21,
    .registerWrite (.host 7) .west 4095 4092 0 false none, .castBegin (.host 7) .west, .castCommit (.host 7) .west,
    .castRollback (.host 7) .west] : List Instr).all (fun i => i.wf) = true := by decide

/-- Commands whose checked operands are the last ones of their ranges are accepted. -/
theorem test_wf_accepts_5 : ([.castTimeout 7, .chartRecordDone 7, .jrnlSel (.host 7) .west 0, .jrnlEvSel (.host 7) .west 0, .groupGood 7 0 0,
    .groupTimeout 7 11, .supplyFault .west 11 0, .railFallen 7, .fallSlow 11, .supvRelease (.host 7) .west,
    .clrCounts (.host 7) .west, .supvCntSel (.host 7) .west 11, .ferryAlignmentBlock .west 19 0 0,
    .registerRead (.host 7) .west 4095 4092] : List Instr).all (fun i => i.wf) = true := by decide

/-- Origins past the islands, LDs and firmware agents of the device are refused. -/
theorem test_wf_origins : Origin.wf (.hw 22) = false ∧ Origin.wf (.ld 128) = false ∧ Origin.wf (.fw .east 16) = false ∧
    Origin.wf (.hw 21) = true ∧ Origin.wf (.ld 127) = true ∧ Origin.wf (.fw .east 15) = true ∧ Origin.wf (.bmc .east) = true := by decide

/-! ### Published vectors -/

/-- FIPS 197, appendix C.3: AES-256 of 00112233…ff under the key 00 01 … 1f. -/
theorem test_aes256 : toLe 32 (fromLe (List.range 32)) = List.range 32 ∧
    aesEnc (aesRoundKeys (List.range 32)) ((List.range 16).map fun k => 0x11 * k) =
      [0x8e, 0xa2, 0xb7, 0xca, 0x51, 0x67, 0x45, 0xbf, 0xea, 0xfc, 0x49, 0x90, 0x4b, 0x49, 0x60, 0x89] := by
  decide +kernel

/-- FIPS 197, appendix C.3, the other way. -/
theorem test_aes256_inverse : aesDec (aesRoundKeys (List.range 32))
      [0x8e, 0xa2, 0xb7, 0xca, 0x51, 0x67, 0x45, 0xbf, 0xea, 0xfc, 0x49, 0x90, 0x4b, 0x49, 0x60, 0x89] =
    (List.range 16).map fun k => 0x11 * k := by
  decide +kernel

/-- The key of the CMAC-AES-256 examples of SP 800-38B. -/
def cmacKey : Nat := fromBe (toLe 32 0x603deb1015ca71be2b73aef0857d77811f352c073b6108d72d9810a30914dff4)

/-- SP 800-38B, CMAC-AES-256 examples: the empty message and one of 16 bytes. -/
theorem test_cmac : fromBe (cmac cmacKey []) = 0x028962f61b7bf89efc6b551f4667d983 ∧
    fromBe (cmac cmacKey (toBe 16 0x6bc1bee22e409f96e93d7e117393172a)) = 0x28a7023f452e8f82bd4bf28d8c37c35c := by
  decide +kernel

/-- CRC-32C of zero bytes from a register. -/
def crcZ (n c : Nat) : Nat := (List.replicate n 0).foldl (fun c b => crcFeed 32 0x1EDC6F41 8 b c) c

theorem crcZ_add (a b c : Nat) : crcZ (a + b) c = crcZ b (crcZ a c) := by
  simp [crcZ, ← List.replicate_append_replicate, List.foldl_append]

theorem crcZ_blocks : crcZ 32 0xFFFFFFFF = 2861790894 ∧ crcZ 32 2861790894 = 422112319 ∧ crcZ 32 422112319 = 719302773 ∧
    crcZ 32 719302773 = 618208239 ∧ crcZ 32 618208239 = 2788829752 ∧ crcZ 12 2788829752 = 2131868783 ∧
    crcZ 32 2788829752 = 4091630545 ∧ crcZ 32 4091630545 = 2540740845 ∧ crcZ 32 2540740845 = 4134711778 ∧
    crcZ 28 4134711778 = 1742140337 := by
  decide +kernel

theorem crc_of_zeros : crcBytes (List.replicate 172 0) = 2131868783 ∧ crcBytes (List.replicate 284 0) = 1742140337 := by
  obtain ⟨a, b, c, d, e, f, g, h, i, j⟩ := crcZ_blocks
  have p : crcZ 160 0xFFFFFFFF = 2788829752 := by
    rw [show 160 = 32 + 32 + 32 + 32 + 32 from rfl, crcZ_add, crcZ_add, crcZ_add, crcZ_add, a, b, c, d, e]
  refine ⟨?_, ?_⟩
  · show crcZ 172 0xFFFFFFFF = _
    rw [show 172 = 160 + 12 from rfl, crcZ_add, p, f]
  · show crcZ 284 0xFFFFFFFF = _
    rw [show 284 = 160 + 32 + 32 + 32 + 28 from rfl, crcZ_add, crcZ_add, crcZ_add, crcZ_add, p, g, h, i, j]

/-- Claim `RomBoots`: rows of zeros with their CRC-32C pass, and a row whose CRC is wrong does not. -/
theorem witness_RomBoots_crc : State.reset.otp.west.crcOk = true ∧ State.reset.otp.east.crcOk = true ∧
    ({ State.reset.otp.west with wcrc := 0 } : OtpRow).crcOk = false := by
  obtain ⟨a, b⟩ := crc_of_zeros
  have z1 : State.reset.otp.west.onceBytes = List.replicate 172 0 := by decide +kernel
  have z2 : State.reset.otp.east.onceBytes = List.replicate 172 0 := by decide +kernel
  have z3 : ({ State.reset.otp.west with wcrc := 0 } : OtpRow).onceBytes = List.replicate 172 0 := by decide +kernel
  have z4 : toLe 284 State.reset.otp.west.repair.toNat = List.replicate 284 0 := by decide +kernel
  have z5 : toLe 284 State.reset.otp.east.repair.toNat = List.replicate 284 0 := by decide +kernel
  refine ⟨?_, ?_, ?_⟩
  · rw [OtpRow.crcOk, z1, z4, a, b]; decide
  · rw [OtpRow.crcOk, z2, z5, a, b]; decide
  · rw [OtpRow.crcOk, z3, a]; decide +kernel

/-! ### Hypotheses met by construction -/

/-- The message bits of an in-order codeword of 20 idle slots that returns 3 credits. -/
def cwBits : BitVec 5140 := BitVec.ofNat 5140 ((1 * 256 + 3) * 2 ^ 5120)

/-- Statement `CodewordHeader` and claim `FerryCodewords`: whatever the scrambler's state, some bits are such a codeword, and others are
one out of order. -/
theorem witness_CodewordHeader (lfsr : BitVec 31) : ∃ bits other : BitVec 5140,
    let sc := scrambler 5140 lfsr 0
    let m := bits ^^^ BitVec.ofNat 5140 sc.2
    (m.extractLsb' 5120 20).toNat / 256 = ((0 : BitVec 12).toNat + 1) % 4096 ∧ (m.extractLsb' 5120 20).toNat % 256 = 3 ∧
    slotsOk (List.range 20).length ((List.range 20).map (cwSlot m)) = true ∧
    ((other ^^^ BitVec.ofNat 5140 sc.2).extractLsb' 5120 20).extractLsb' 8 12 ≠ (0 : BitVec 12) + 1 := by
  refine ⟨cwBits ^^^ BitVec.ofNat 5140 (scrambler 5140 lfsr 0).2, BitVec.ofNat 5140 (scrambler 5140 lfsr 0).2, ?_⟩
  simp only [BitVec.xor_assoc, BitVec.xor_self, BitVec.xor_zero]
  refine ⟨?_, ?_, ?_, ?_⟩ <;> decide +kernel

/-- West with keys in slot 0. -/
def keyed0 : Dev := run.updSlot .west 0 fun k => { k with state := .active, loadedA := true }

theorem tileCmac_cmac (k : BitVec 256) (i : TileImg) (x : BitVec 128) : tileCmac k { i with cmac := x } = tileCmac k i := by
  have n (m v : Nat) : (toLe m v).length = m := by simp [toLe]
  have e (y : BitVec 128) : (trailerBytes { i with cmac := y }).take 240 = (trailerBytes { i with cmac := 0 }).take 240 := by
    unfold trailerBytes
    refine (List.take_append_of_le_length ?_).trans (List.take_append_of_le_length ?_).symm <;>
      simp only [List.length_append, n, List.length_replicate] <;> decide
  show BitVec.ofNat 128 (fromLe (cmac k.toNat ((trailerBytes { i with cmac := x }).take 240 ++ _))) =
    BitVec.ofNat 128 (fromLe (cmac k.toNat ((trailerBytes { i with cmac := i.cmac }).take 240 ++ _)))
  rw [e x, e i.cmac]

/-- A tile image with a CMAC passes where its key serves and the CMAC is the key's. -/
theorem imgOk_cmac (d : Dev) (h : Half) (i : TileImg) (x : BitVec 128) (hs : (d.kslot h i.slot.toNat).serves i.phase = true) :
    d.imgOk h { i with cmac := x } = (tileCmac (d.kslot h i.slot.toNat).cmac i == x) := by
  simp only [Dev.imgOk, tileCmac_cmac, hs, Bool.true_and]

/-- Claims about promotions and repairs: a tile image whose CMAC passes under a key that serves, and one whose CMAC does not. -/
theorem witness_imgOk : ∃ i : TileImg, keyed0.imgOk .west i = true ∧ ∃ x, keyed0.imgOk .west { i with cmac := x } = false := by
  have hs : (keyed0.kslot .west ({} : TileImg).slot.toNat).serves ({} : TileImg).phase = true := by decide +kernel
  refine ⟨{ ({} : TileImg) with cmac := tileCmac (keyed0.kslot .west ({} : TileImg).slot.toNat).cmac {} }, ?_,
    tileCmac (keyed0.kslot .west ({} : TileImg).slot.toNat).cmac {} + 1, ?_⟩
  · rw [imgOk_cmac _ _ _ _ hs, beq_self_eq_true]
  · refine (imgOk_cmac _ _ {} _ hs).trans (beq_eq_false_iff_ne.mpr ?_)
    generalize tileCmac _ _ = v
    bv_omega

/-- Statement `FusesOnlyProgram`: the rows at reset have their own bits, and a step from there answers a next state. -/
theorem witness_FusesOnlyProgram : fusesFrom State.reset.otp State.reset.otp ∧ ∃ t, step State.reset = .next t :=
  ⟨fun k => by cases k <;> decide +kernel, _, rfl⟩

/-- West's cache holds line 0 in slot 0. -/
def cached : Dev := run.landPut .west 0 { tag := landTag 0, dirty := true, line := {} }

/-- West's cache is disabled and empty. -/
def uncached : Dev := run.upd .west fun x => { x with land := { x.land with state := .disabled } }

/-- Statements `StoredLineSurvivesOneFlip` and `StoredLinesStay`: tags of a whole stored line, a line that the cache holds, and one that it
does not hold where the cache is not enabled. -/
theorem witness_StoredLines :
    (mkTags 0 0 0 false false 0xF false 0).w = 0xF ∧ (mkTags 0 0 0 false false 0xF false 0).state = 0 ∧
    cached.landFind .west 0 = some (0, { tag := landTag 0, dirty := true, line := {} }) ∧ (cached.half .west).land.state ≠ .draining ∧
    uncached.landFind .west 0 = none ∧ (uncached.half .west).land.state ≠ .enabled := by
  decide +kernel

/-! ### A wrapped key and a transport point -/

/-- The round keys of a key of zeros. -/
def rkZero : List (List Nat) := [[0, 0, 0, 0, 0, 0, 0, 0, 0, 0, 0, 0, 0, 0, 0, 0], [0, 0, 0, 0, 0, 0, 0, 0, 0, 0, 0, 0, 0, 0, 0, 0], [98, 99, 99, 99, 98, 99, 99,
    99, 98, 99, 99, 99, 98, 99, 99, 99], [170, 251, 251, 251, 170, 251, 251, 251, 170, 251, 251, 251, 170, 251, 251, 251], [111,
    108, 108, 207, 13, 15, 15, 172, 111, 108, 108, 207, 13, 15, 15, 172], [125, 141, 141, 106, 215, 118, 118, 145, 125, 141, 141,
    106, 215, 118, 118, 145], [83, 84, 237, 193, 94, 91, 226, 109, 49, 55, 142, 162, 60, 56, 129, 14], [150, 138, 129, 193, 65, 252,
    247, 80, 60, 113, 122, 58, 235, 7, 12, 171], [158, 170, 143, 40, 192, 241, 109, 69, 241, 198, 227, 231, 205, 254, 98, 233], [43,
    49, 43, 223, 106, 205, 220, 143, 86, 188, 166, 181, 189, 187, 170, 30], [100, 6, 253, 82, 164, 247, 144, 23, 85, 49, 115, 240,
    152, 207, 17, 25], [109, 187, 169, 11, 7, 118, 117, 132, 81, 202, 211, 49, 236, 113, 121, 47], [231, 176, 232, 156, 67, 71, 120,
    139, 22, 118, 11, 123, 142, 185, 26, 98], [116, 237, 11, 161, 115, 155, 126, 37, 34, 81, 173, 20, 206, 32, 212, 59], [16, 248,
    10, 23, 83, 191, 114, 156, 69, 201, 121, 231, 203, 112, 99, 133]]

/-- One step of an unwrap of twelve words. -/
def unwrapAt (s : Nat × List Nat) (k : Nat) : Nat × List Nat :=
  let q := unwrapStep rkZero (k + 1) s.1 (s.2.getD (k % 12) 0)
  (q.1, s.2.set (k % 12) q.2)

/-- K1, K2 and a CMAC key for phase A of slot 5, wrapped under a transport key of zeros (R258). -/
def wrapped : List Nat := [10752284445218450131, 15825313486032346105, 13874400302219715456, 2611603283416923568, 16057943461756050104, 11263884351005133722,
    1219689869468869426, 2939617353289471609, 5835903973437606608, 16475910807719804726, 13189284564135446867, 12848577979232049434,
    1253978874107412663]

/-- The same key words, each with all its hex digits equal. -/
def unwrapped : List Nat := (List.range 12).map fun k => 0x1111111111111111 * k

theorem rkZero_eq : aesRoundKeys (toLe 32 0) = rkZero := by decide +kernel

/-- Unwrap steps 71 to 66. -/
theorem unwrap_steps0 : [71, 70, 69, 68, 67, 66].foldl unwrapAt
    (10752284445218450131, [15825313486032346105, 13874400302219715456, 2611603283416923568, 16057943461756050104, 11263884351005133722,
      1219689869468869426, 2939617353289471609, 5835903973437606608, 16475910807719804726, 13189284564135446867,
      12848577979232049434, 1253978874107412663]) =
    (8980036020752979035, [15825313486032346105, 13874400302219715456, 2611603283416923568, 16057943461756050104, 11263884351005133722,
      1219689869468869426, 1779859168515788837, 15019994722755575948, 12807807927122763513, 13162262676845054493,
      8535466346298367849, 2986991388534873824]) := by
  decide +kernel

/-- Unwrap steps 65 to 60. -/
theorem unwrap_steps1 : [65, 64, 63, 62, 61, 60].foldl unwrapAt
    (8980036020752979035, [15825313486032346105, 13874400302219715456, 2611603283416923568, 16057943461756050104, 11263884351005133722,
      1219689869468869426, 1779859168515788837, 15019994722755575948, 12807807927122763513, 13162262676845054493,
      8535466346298367849, 2986991388534873824]) =
    (2544972542945814021, [12018586436639705592, 4597550952218719528, 4667792690577297901, 7490486195226373044, 5918782960191051290,
      11344397589896786911, 1779859168515788837, 15019994722755575948, 12807807927122763513, 13162262676845054493,
      8535466346298367849, 2986991388534873824]) := by
  decide +kernel

/-- Unwrap steps 59 to 54. -/
theorem unwrap_steps2 : [59, 58, 57, 56, 55, 54].foldl unwrapAt
    (2544972542945814021, [12018586436639705592, 4597550952218719528, 4667792690577297901, 7490486195226373044, 5918782960191051290,
      11344397589896786911, 1779859168515788837, 15019994722755575948, 12807807927122763513, 13162262676845054493,
      8535466346298367849, 2986991388534873824]) =
    (5647372231659073527, [12018586436639705592, 4597550952218719528, 4667792690577297901, 7490486195226373044, 5918782960191051290,
      11344397589896786911, 1892365646691080374, 3360761705298095691, 13130166561053792681, 14239360739636166766,
      9796434841011653911, 7737385076185040438]) := by
  decide +kernel

/-- Unwrap steps 53 to 48. -/
theorem unwrap_steps3 : [53, 52, 51, 50, 49, 48].foldl unwrapAt
    (5647372231659073527, [12018586436639705592, 4597550952218719528, 4667792690577297901, 7490486195226373044, 5918782960191051290,
      11344397589896786911, 1892365646691080374, 3360761705298095691, 13130166561053792681, 14239360739636166766,
      9796434841011653911, 7737385076185040438]) =
    (6914732184965620675, [12849973778216923809, 348660711163108079, 1685036525383849509, 14922769658428080610, 12173584944179871007,
      13151279580710825759, 1892365646691080374, 3360761705298095691, 13130166561053792681, 14239360739636166766,
      9796434841011653911, 7737385076185040438]) := by
  decide +kernel

/-- Unwrap steps 47 to 42. -/
theorem unwrap_steps4 : [47, 46, 45, 44, 43, 42].foldl unwrapAt
    (6914732184965620675, [12849973778216923809, 348660711163108079, 1685036525383849509, 14922769658428080610, 12173584944179871007,
      13151279580710825759, 1892365646691080374, 3360761705298095691, 13130166561053792681, 14239360739636166766,
      9796434841011653911, 7737385076185040438]) =
    (3576372273831851716, [12849973778216923809, 348660711163108079, 1685036525383849509, 14922769658428080610, 12173584944179871007,
      13151279580710825759, 15225131377236618052, 12632373260068715255, 3822252842395916174, 14460569342593828961,
      12089298858964705029, 16215846296726042364]) := by
  decide +kernel

/-- Unwrap steps 41 to 36. -/
theorem unwrap_steps5 : [41, 40, 39, 38, 37, 36].foldl unwrapAt
    (3576372273831851716, [12849973778216923809, 348660711163108079, 1685036525383849509, 14922769658428080610, 12173584944179871007,
      13151279580710825759, 15225131377236618052, 12632373260068715255, 3822252842395916174, 14460569342593828961,
      12089298858964705029, 16215846296726042364]) =
    (13146697161918239191, [8176910105017997082, 4009802925780331883, 10987836701336007849, 2049728015550721889, 7851638795336488673,
      16423903053523431016, 15225131377236618052, 12632373260068715255, 3822252842395916174, 14460569342593828961,
      12089298858964705029, 16215846296726042364]) := by
  decide +kernel

/-- Unwrap steps 35 to 30. -/
theorem unwrap_steps6 : [35, 34, 33, 32, 31, 30].foldl unwrapAt
    (13146697161918239191, [8176910105017997082, 4009802925780331883, 10987836701336007849, 2049728015550721889, 7851638795336488673,
      16423903053523431016, 15225131377236618052, 12632373260068715255, 3822252842395916174, 14460569342593828961,
      12089298858964705029, 16215846296726042364]) =
    (16422178561805581550, [8176910105017997082, 4009802925780331883, 10987836701336007849, 2049728015550721889, 7851638795336488673,
      16423903053523431016, 1923539874816874848, 1783628292696054527, 1596333028774282652, 3817686566201397402,
      17676513471844875769, 17256939900284474861]) := by
  decide +kernel

/-- Unwrap steps 29 to 24. -/
theorem unwrap_steps7 : [29, 28, 27, 26, 25, 24].foldl unwrapAt
    (16422178561805581550, [8176910105017997082, 4009802925780331883, 10987836701336007849, 2049728015550721889, 7851638795336488673,
      16423903053523431016, 1923539874816874848, 1783628292696054527, 1596333028774282652, 3817686566201397402,
      17676513471844875769, 17256939900284474861]) =
    (13940473306905794312, [9080190589853747461, 13394053530798702589, 449741438654279306, 4876192788968342190, 6468247971540955278,
      7717454296887864764, 1923539874816874848, 1783628292696054527, 1596333028774282652, 3817686566201397402, 17676513471844875769,
      17256939900284474861]) := by
  decide +kernel

/-- Unwrap steps 23 to 18. -/
theorem unwrap_steps8 : [23, 22, 21, 20, 19, 18].foldl unwrapAt
    (13940473306905794312, [9080190589853747461, 13394053530798702589, 449741438654279306, 4876192788968342190, 6468247971540955278,
      7717454296887864764, 1923539874816874848, 1783628292696054527, 1596333028774282652, 3817686566201397402, 17676513471844875769,
      17256939900284474861]) =
    (7798383593885916516, [9080190589853747461, 13394053530798702589, 449741438654279306, 4876192788968342190, 6468247971540955278,
      7717454296887864764, 17251046553265406822, 16047021858351083727, 15548179059579487371, 2547175131006844298,
      17100535596348377003, 5776096156785741127]) := by
  decide +kernel

/-- Unwrap steps 17 to 12. -/
theorem unwrap_steps9 : [17, 16, 15, 14, 13, 12].foldl unwrapAt
    (7798383593885916516, [9080190589853747461, 13394053530798702589, 449741438654279306, 4876192788968342190, 6468247971540955278,
      7717454296887864764, 17251046553265406822, 16047021858351083727, 15548179059579487371, 2547175131006844298,
      17100535596348377003, 5776096156785741127]) =
    (2258600030499883412, [13132381238218377183, 10953771320766836039, 6127349452354760078, 12404305011959243051, 2288880007089644990,
      5293971174172042935, 17251046553265406822, 16047021858351083727, 15548179059579487371, 2547175131006844298,
      17100535596348377003, 5776096156785741127]) := by
  decide +kernel

/-- Unwrap steps 11 to 6. -/
theorem unwrap_steps10 : [11, 10, 9, 8, 7, 6].foldl unwrapAt
    (2258600030499883412, [13132381238218377183, 10953771320766836039, 6127349452354760078, 12404305011959243051, 2288880007089644990,
      5293971174172042935, 17251046553265406822, 16047021858351083727, 15548179059579487371, 2547175131006844298,
      17100535596348377003, 5776096156785741127]) =
    (15686791944384385813, [13132381238218377183, 10953771320766836039, 6127349452354760078, 12404305011959243051, 2288880007089644990,
      5293971174172042935, 7378697629483820646, 8608480567731124087, 9838263505978427528, 11068046444225730969,
      12297829382473034410, 13527612320720337851]) := by
  decide +kernel

/-- Unwrap steps 5 to 0. -/
theorem unwrap_steps11 : [5, 4, 3, 2, 1, 0].foldl unwrapAt
    (15686791944384385813, [13132381238218377183, 10953771320766836039, 6127349452354760078, 12404305011959243051, 2288880007089644990,
      5293971174172042935, 7378697629483820646, 8608480567731124087, 9838263505978427528, 11068046444225730969,
      12297829382473034410, 13527612320720337851]) =
    (5429370825771843904, [0, 1229782938247303441, 2459565876494606882, 3689348814741910323, 4919131752989213764, 6148914691236517205,
      7378697629483820646, 8608480567731124087, 9838263505978427528, 11068046444225730969, 12297829382473034410,
      13527612320720337851]) := by
  decide +kernel

/-- The words unwrap, with the initial value of slot 5, phase A, generation 0 (R258). -/
theorem unwrap_wrapped : kwUnwrap 0 wrapped = (wrapIv 0 5 false, unwrapped) := by
  have r : (List.range 72).reverse = [71, 70, 69, 68, 67, 66] ++ [65, 64, 63, 62, 61, 60] ++ [59, 58, 57, 56, 55, 54] ++ [53, 52, 51, 50, 49, 48] ++ [47, 46, 45, 44, 43,
      42] ++ [41, 40, 39, 38, 37, 36] ++ [35, 34, 33, 32, 31, 30] ++ [29, 28, 27, 26, 25, 24] ++ [23, 22, 21, 20, 19, 18] ++ [17,
      16, 15, 14, 13, 12] ++ [11, 10, 9, 8, 7, 6] ++ [5, 4, 3, 2, 1, 0] := by decide
  show (List.range 72).reverse.foldl (fun (s : Nat × List Nat) k =>
    let q := unwrapStep (aesRoundKeys (toLe 32 0)) (k + 1) s.1 (s.2.getD (k % 12) 0)
    (q.1, s.2.set (k % 12) q.2)) (wrapped.headD 0, wrapped.drop 1) = _
  rw [rkZero_eq]
  show (List.range 72).reverse.foldl unwrapAt (10752284445218450131, [15825313486032346105, 13874400302219715456, 2611603283416923568, 16057943461756050104, 11263884351005133722, 1219689869468869426, 2939617353289471609, 5835903973437606608, 16475910807719804726, 13189284564135446867, 12848577979232049434, 1253978874107412663]) = _
  rw [r]
  simp only [List.foldl_append, unwrap_steps0, unwrap_steps1, unwrap_steps2, unwrap_steps3, unwrap_steps4, unwrap_steps5, unwrap_steps6, unwrap_steps7, unwrap_steps8, unwrap_steps9, unwrap_steps10, unwrap_steps11]
  decide +kernel

/-- Put bytes in West's `KEYS.BLOB`. -/
def blob (d : Dev) (b : List Nat) : Dev :=
  (List.range 36).foldl (fun d i => d.setReg .west pgKEYS (0x100 + 4 * i) (fromLe ((b.drop (4 * i)).take 4))) d

/-- Host 0 has a transport key of zeros and the wrapped key in the blob. -/
def loading : Dev := blob { run with keys := { run.keys with transports := [{ org := host0, key := 0 }] } } (wrapped.flatMap (toBe 8))

/-- Claim `KeyCommands`: a LOAD of slot 5 that is allowed, whose blob unwraps. -/
theorem witness_KeyLoad : let d := loading.entry host0 .west pgKEYS 0x040 (2 + 5 * 16)
    loading.takes host0 .west pgKEYS 0x040 = true ∧ d.keysJudge host0 .west (2 + 5 * 16) = 0 ∧
    ∃ ks, d.unwrapBlob host0 .west 5 false = some ks := by
  intro d
  have f : d.keys.transports.find? (fun t => t.org == host0) = some { org := host0, key := 0 } := by decide +kernel
  have b : (pieces 8 13 (d.blob .west 104)).map fromBe = wrapped := by decide +kernel
  have g : (d.kslot .west 5).gen = 0 := by decide +kernel
  have u : d.unwrapBlob host0 .west 5 false =
      some ((List.range 3).map fun i => keyOfWords (((unwrapped.map (BitVec.ofNat 64)).drop (4 * i)).take 4)) := by
    unfold Dev.unwrapBlob
    simp only [f, b, g, show (0 : BitVec 256).toNat = 0 from rfl, unwrap_wrapped, if_true]
  refine ⟨by decide +kernel, ?_, _, u⟩
  have v : bitsOf (2 + 5 * 16) 13 4 = 5 ∧ (2 + 5 * 16).testBit 14 = false ∧ (2 + 5 * 16) % 16 = 2 := by decide
  unfold Dev.keysJudge
  simp only [v.1, v.2.1, v.2.2, u]
  decide +kernel

/-- Host 0 puts the base point in the blob, and West's key for key loads is 1. -/
def establishing : Dev := blob (run.upd .west fun x => { x with boot := { x.boot with
  keys := some { identity := 1, keyLoad := 1, recMac := 0, recWrap := 0 } } }) (encPoint (p521gx, p521gy))

/-- Claim `KeyCommands`: an ESTABLISH that is allowed and gives a transport key. -/
theorem witness_KeyEstablish : let d := establishing.entry host0 .west pgKEYS 0x040 1
    establishing.takes host0 .west pgKEYS 0x040 = true ∧ d.keysJudge host0 .west 1 = 0 ∧ (d.transportOf host0 .west).isSome = true := by
  decide +kernel

/-- Statement `TilesAndKeysStay`: a command that leaves the stores, and its next state. -/
theorem witness_TilesAndKeysStay : leavesTiles .gpfPhase1 = true ∧ ∃ t, exec .gpfPhase1 (st run) = .next t := ⟨rfl, _, rfl⟩

/-! ### Hypotheses met in small states -/

/-- LD context 0 of West with one record in its first log. -/
def logged : Dev := run.updLd .west 0 fun x => { x with logInfo := { records := [{ kind := .dram, addr := 1, info := 0, time := 0, handle := 1 }] } }

/-- Claims `MailboxReportsChangeNothing`, `MailboxSettings`, `MailboxLogs` and `LabelStorage`: a mailbox that takes commands, a log with a record, and handles that do not match. -/
theorem witness_MailboxReportsChangeNothing :
    (run.mboxOk .west 0 = true) ∧
    (run.mboxOk .west 63 = true) ∧
    (logged.mboxOk .west 0 = true ∧ (logged.ldc .west 0).logInfo.records ≠ []) ∧
    (((logged.ldc .west 0).logInfo.records.take 1).map (·.handle) ≠ [2]) ∧
    (100 + 20 ≤ 120 ∧ 131072 - 16376 + 16376 ≤ 131072 ∧ 131072 < 131072 + 1) := by
  decide +kernel

/-- One extent of LD 0, released by the host. -/
def releasing : Dev := run.updLd .west 0 fun x => { x with extents := [{ region := 0, lda := 0, dpa := 16, len := 16, releasing := true }] }

/-- LD 0 with one region of 1 GiB blocks and 64 GiB. -/
def region1 : Dev := (run.upd .west fun x => { x with tier := { x.tier with backed := 2 ^ 20 } }).setReg .west (pgLDP 0) 0x054 (1024 * 256 + 1 * 16 + 1)

/-- Claims `DynamicCapacityAnswers` and `ReleasedExtentEnds`: no extents, and one that is being released over tiles without an entry. -/
theorem witness_DynamicCapacityAnswers :
    (run.mboxOk .west 0 = true ∧ ((run.ldc .west 0).extents.filter fun e => !e.releasing).length < 1 ∧ (run.extents .west 0).length ≤ 1024 ∧ (run.ldc .west 0).extents = []) ∧
    (run.findLd 200 = none ∧ region1.findLd 0 = some (.west, 0) ∧ region1.fld .west (pgLDP 0) 0x054 3 0 = 1) ∧
    ((releasing.ldc .west 0).extents.find? (·.releasing) = some { region := 0, lda := 0, dpa := 16, len := 16, releasing := true } ∧ releasing.tilesIn 16 16 = []) := by
  decide +kernel

/-- The same LD with an offer, and with an extent. -/
def offered1 : Dev := region1.updLd .west 0 fun x => { x with offered := [{ region := 0, lda := 0, dpa := 0, len := 4 }], extents := [{ region := 0, lda := 4, dpa := 4, len := 4 }] }

/-- Claim `DynamicCapacityChanges`: a region with room (whatever the device chooses, some run is found), a run offered and accepted, and an extent held and released. -/
theorem witness_DynamicCapacityChanges :
    (region1.dcCfg .west 0 = (1, 4, 1024) ∧ (region1.extents .west 0).length + (region1.ldc .west 0).offered.length < 1024 ∧ (region1.single && Half.west == .east) = false ∧ region1.fld .west (pgLDP 0) 0x060 0 0 = 0) ∧
    (region1.dpaTaken = [] ∧ firstFree region1.dpaTaken 0 1024 4 4 = some 0) ∧
    (firstFree (((region1.ldc .west 0).extents ++ (region1.ldc .west 0).offered).map fun e => (e.lda, e.len)) (region1.regionBase .west 0 0) (region1.regionBase .west 0 0 + 1024) 4 4 = some 0) ∧
    (offered1.mboxOk .west 0 = true ∧ runsOk 4 [(0, 4)] = true ∧ ([(0, 4)].filterMap (partOf (offered1.ldc .west 0).offered)).length = 1 ∧ (offered1.extents .west 0).length + 1 ≤ 1024) ∧
    (runsOk 4 [(4, 4)] = true ∧ (partOf (offered1.ldc .west 0).extents (4, 4)).isSome = true ∧ (offered1.extents .west 0).length - (offered1.ldc .west 0).extents.length + ([(4, 4)].foldl (fun l p => l.flatMap (cutExtent p)) (offered1.ldc .west 0).extents).length ≤ 1024) := by
  decide +kernel

/-- LD 0 with a background command. -/
def bgLd (b : BgOp) : Dev := run.updLd .west 0 fun x => { x with bg := some b }

/-- Claims `PoisonAndMediaCommands`, `BackgroundCommandsEnd`, `CdatAnswers`: unaligned and aligned addresses, and a background command that runs on an LD without extents. -/
theorem witness_PoisonAndMediaCommands :
    (run.mboxOk .west 0 = true ∧ 1 % 64 ≠ 0 ∧ (run.ldc .west 0).bg = none ∧ 64 % 64 = 0 ∧ 0 < 64) ∧
    ((bgLd .sanitize).mboxOk .west 0 = true ∧ ((bgLd .sanitize).ldc .west 0).bg = some .sanitize ∧ (bgLd .sanitize).extents .west 0 = []) ∧
    (((bgLd .secureErase).ldc .west 0).bg = some .secureErase ∧ (bgLd .secureErase).extents .west 0 = []) ∧
    (((bgLd (.scan 0 64)).ldc .west 0).bg = some (.scan 0 64) ∧ (bgLd (.scan 0 64)).extents .west 0 = []) ∧
    (run.ldOn .west 0 = true) := by
  decide +kernel

/-- Claims `PoisonWritesEnter` and `ErasesStart`: an LD with a static extent takes writes and may be erased. -/
theorem witness_PoisonWritesEnter :
    (served0.mboxOk .west 0 = true ∧ (served0.ldc .west 0).mediaDisabled = false ∧ served0.accessRefused .west 0 = false ∧ served0.mediaUp .west = true) ∧
    (served0.ldaLine .west 0 (2 ^ 28 - 64) = some (2 ^ 22 - 1) ∧ served0.ldaLine .west 0 0 = some 0 ∧ (served0.ldc .west 0).writeRefused = false) ∧
    ((served0.ldc .west 0).bg = none ∧ (served0.split && served0.crossLd .west 0) = false ∧ (served0.slotsOf (served0.ldNum .west 0)).length ≤ served0.freeSlots) ∧
    ((((served0.updLd .west 0 fun x => { x with bg := some .sanitize }).eraseLd .west 0).solo && ((served0.updLd .west 0 fun x => { x with bg := some .sanitize }).eraseLd .west 0).twinPaired .west) = false) := by
  decide +kernel

/-- Claim `HostAccess`: an access inside the decoder and the extent, one outside, and one under WRITE_REFUSED. -/
theorem witness_HostAccess :
    (served0.portServes .west 0 0 = true ∧ served0.ctxAt .west 0 0 0 = some 0) ∧
    (served0.portTake .west 0 (2 ^ 28 - 64) false = .line (2 ^ 22 - 1) ∧ served0.portTake .west 0 0 true = .line 0) ∧
    (served0.portTake .west 0 (2 ^ 28) false = .unmapped 0 ∧ served0.portTake .west 0 (2 ^ 28) true = .unmapped 0) ∧
    ((served0.updLd .west 0 fun x => { x with writeRefused := true }).portTake .west 0 0 true = .refused) := by
  decide +kernel

/-- A tile of West in a state. -/
def tileIn (t : TileState) : Dev := run.setTile .west 0 { state := t }

/-- A heal of line 0 of frame 0. -/
def heal0 (l : SLine) : Heal := { place := 0, landing := false, was := l, now := encodeLine 0 0 (mkTags 0 0 0 false false 0xF false 0) }

/-- Claims `ReadsOfBlankAndLost`, `ManifestFetchReturns` and `DramReadsAndHeals`: tiles in each state, one fetch, one DRAM read, one heal whose line stands or not. -/
theorem witness_ReadsOfBlankAndLost :
    (rd0.kind = .read ∧ run.behind .west rd0 = false ∧ run.west.tier.copying = none) ∧
    ((run.tile .west (lineTile 0)).state = .blank ∧ ((tileIn .lost).tile .west 0).state = .lost ∧ (tileIn .lost).behind .west rd0 = false) ∧
    (((tileIn .rising).tile .west 0).state = .rising ∧ (tileIn .rising).behind .west rd0 = false) ∧
    (((run.upd .west fun x => { x with tier := { x.tier with fetching := [rd0] } }).half .west).tier.fetching = [rd0]) ∧
    (((run.upd .west fun x => { x with tier := { x.tier with dramReads := [rd0] } }).half .west).tier.dramReads = rd0 :: []) ∧
    ((run.upd .west fun x => { x with tier := { x.tier with dramReads := [rd0] } }).subHeld .west (frameSub (run.tile .west 0).frame.toNat) = false) ∧
    (run.frameLine .west 0 0 = (heal0 (run.frameLine .west 0 0)).was ∧ run.frameLine .west 0 0 ≠ (heal0 (encodeLine 0 5 (mkTags 0 0 0 false false 0xF false 0))).was) := by
  decide +kernel

/-- West waits for the answer to a request with tag 7. -/
def crossing (m : FordMsg) : Dev := (sent m).upd .west fun x => { x with crossing := [{ tag := 7, src := .host .west 0 0 1, ld := 0, isRead := true }] }

/-- Claim `CrossHalfRequests`: each message at the head of its class, and a request that waits for it. -/
theorem witness_CrossHalfRequests :
    (((sent (.memRd 3 0 7)).fordTake .west 1 FordMsg.isMemRd).map (·.1) = some (.memRd 3 0 7)) ∧
    (((sent (.memWr 3 0 7 5)).fordTake .west 1 FordMsg.isMemWr).map (·.1) = some (.memWr 3 0 7 5)) ∧
    (((sent (.memWrp 3 0 7 5 1)).fordTake .west 1 FordMsg.isMemWrp).map (·.1) = some (.memWrp 3 0 7 5 1)) ∧
    (((crossing (.memRdData 7 1 false false 5)).fordTake .west 2 FordMsg.isMemRdData).map (·.1) = some (.memRdData 7 1 false false 5)) ∧
    ((((crossing (.memRdData 7 1 false true 0)).fordTake .west 2 FordMsg.isMemRdData).bind fun p => p.2.crossTake .west 7).isSome = true) ∧
    ((((crossing (.memWrAck [7])).fordTake .west 2 FordMsg.isMemWrAck).bind fun p => p.2.crossTake .west 7).isSome = true) := by
  decide +kernel

/-- East discards and West has resent `n` times in a row. -/
def resent (n : Nat) : Dev := (run.upd .east fun x => { x with ford := { x.ford with discarding := true } }).upd .west fun x => { x with ford := { x.ford with resent := n } }

/-- Claims `FordFlits` and `FordLanesAndModules`: a sender with 14 and with 15 replays, and a module with 3 and with 4 repaired lanes. -/
theorem witness_FordFlits :
    (run.fordUp .west = true ∧ run.west.ford.discarding = false) ∧
    ((resent 14).east.ford.discarding = true ∧ ((resent 14).half .west).ford.resent + 1 < 16 ∧ 16 ≤ ((resent 15).half .west).ford.resent + 1 ∧ ((resent 15).half .west).ford.upOf 0 = true) ∧
    ((run.half .west).ford.upOf 1 = true ∧ (run.half .west).ford.repairOf 1 < 4) ∧
    (4 ≤ ((run.upd .west fun x => { x with ford := x.ford.setRepair 1 4 }).half .west).ford.repairOf 1) := by
  decide +kernel

/-- Both ends of the Ford in a state, with no module up. -/
def fordIn (f : FordState) : Dev := run.fordBoth fun x => { x with state := f, up0 := false, up1 := false }

/-- Claims `FordTraining` and `FordRetrainCommand`: a Ford in each state, with lanes that train and lanes that do not, and both variants. -/
theorem witness_FordTraining :
    ((fordIn .retraining).west.ford.state = .retraining) ∧
    ((((fordIn .retraining).fordTrain [5, 5, 5, 5]).west.ford.up0 || ((fordIn .retraining).fordTrain [5, 5, 5, 5]).west.ford.up1) = false) ∧
    (((((fordIn .retraining).fordTrain [0, 0, 0, 0]).fordBoth fun f => fordFlush f.upState).modulesOn.all fun m => (((fordIn .retraining).fordTrain [0, 0, 0, 0]).fordBoth fun f => fordFlush f.upState).west.ford.upOf m) = true) ∧
    ((run.fordBoth fun x => { x with state := .upHalf, up1 := false, joining := [1] }).west.ford.joining.contains 1 = true) ∧
    (run.single = false ∧ run.west.ford.state ≠ .lost) ∧
    ((fordIn .training).west.ford.state = .training ∧ (fordIn .training).supv.resetN = true ∧ ((fordIn .training).fordTry [0, 0, 0, 0]).isSome = true) ∧
    ((fordIn .lost).single = false ∧ ((fordIn .lost).fordTry [0, 0, 4, 4]).isSome = true ∧ (fordIn .lost).west.pwr.gated = 0 ∧ (fordIn .lost).east.pwr.gated = 0 ∧ (fordIn .lost).west.pwr.failed = 0 ∧ (fordIn .lost).east.pwr.failed = 0) ∧
    (run.takes host0 .west pgFORD 0x040 = true ∧ (run.entry host0 .west pgFORD 0x040 7).fordUp .west = true ∧ (run.entry host0 .west pgFORD 0x040 7).single = false) ∧
    ((fordIn .absent).takes host0 .west pgFORD 0x040 = true ∧ ((fordIn .absent).entry host0 .west pgFORD 0x040 7).single = true) := by
  decide +kernel

/-- Claim `SailingsOpenAndSeal`: the master sails, and each message at the head of its class; an echo in time and one too late. -/
theorem witness_SailingsOpenAndSeal :
    (((sailing5 [] 0).isMaster .west && (sailing5 [] 0).sails .west) = true) ∧
    (((sailing5 [.beaconOpen 6] 0).fordTake .west 0 FordMsg.isBeaconOpen).map (·.1) = some (.beaconOpen 6)) ∧
    (((sailing5 [.beaconEcho 5] 0).fordTake .west 0 FordMsg.isBeaconEcho).map (fun p => p.2.echoLate .west 5) = some false) ∧
    (((sailing5 [.beaconEcho 5] 1000000).fordTake .west 0 FordMsg.isBeaconEcho).map (fun p => p.2.echoLate .west 5) = some true) ∧
    (((sailing5 [] 0).half .west).sail.reservePending = some 99) ∧
    (((sailing5 [.sealReady 5] 0).fordTake .west 0 FordMsg.isSealReady).map (·.1) = some (.sealReady 5)) := by
  decide +kernel

/-- An LD with `n` outstanding fences. -/
def fenced (n : Nat) : Dev := run.updLd .west 0 fun x => { x with fences := List.replicate n { token := 1, target := 5 } }

/-- Claims `Fences`, `FencesInOrder` and `GpfPhases`: a fence rung with none, 63 and 64 outstanding, one that times out, and GPF in its three cases. -/
theorem witness_Fences :
    (run.takes (.ld 0) .west (pgLDP 0) 0x100 false = true ∧ (run.ldc .west 0).fences.length < 64) ∧
    ((fenced 63).takes (.ld 0) .west (pgLDP 0) 0x100 false = true ∧ (((fenced 63).wake .west (pageIsland (pgLDP 0))).ldc .west 0).fences.length < 64) ∧
    ((fenced 64).takes (.ld 0) .west (pgLDP 0) 0x100 false = true ∧ 64 ≤ (((fenced 64).wake .west (pageIsland (pgLDP 0))).ldc .west 0).fences.length) ∧
    (((fenced 1).ldc .west 0).fences = { token := 1, target := 5 } :: []) ∧
    ((sailing5 [] 0).beacon = .west ∧ ((sailing5 [] 0).half .west).sail.sealed < ((sailing5 [] 0).half .west).sail.current) ∧
    ((run.half run.beacon).sail.current ≤ (run.half run.beacon).sail.sealed ∧ ({ run with gpf := some 5 } : Dev).gpf ≠ none) := by
  decide +kernel

/-- Claims `PortResets`, `LinksTrain` and `DecoderCommits`: a port that serves, a link that trains fully, one that is slow, and a decoder that meets the rules and one that does not. -/
theorem witness_PortResets :
    (0 < 4 ∧ served0.inLf .west = false ∧ (served0.updPort .west 3 fun q => { q with perstHigh := false }).islandDark .west (Block.hpt.island 3) = false) ∧
    (((served0.west.ports.getD 0 {}).links.getD 0 {}).up = true ∧ served0.ldOn .west 0 = true ∧ served0.ldOn .west 63 = true) ∧
    (0 < served0.subLinks .west 0 ∧ served0.fld .west (pgHPT 0) 0x040 5 4 = 0 ∧ served0.subWidth .west 0 = 5) ∧
    ((served0.setFld .west (pgHPT 0) 0x040 6 6 1).fld .west (pgHPT 0) 0x040 6 6 = 1 ∧ (served0.west.ports.getD 0 {}).perstHigh = true ∧ served0.islandDark .west (Block.hpt.island 0) = false) ∧
    ((max (0 % 4) (served0.fld .west (pgHPT 0) 0x040 5 4) < 3 ∧ min (max 1 5) (served0.subWidth .west 0) = served0.subWidth .west 0) ∧ 3 ≤ max (3 % 4) (served0.fld .west (pgHPT 0) 0x040 5 4)) ∧
    (run.ldOn .west 0 = true ∧ (((run.ldc .west 0).hdm).getD 7 {}).committed = false ∧ (((run.ldc .west 0).hdm).getD 0 {}).committed = false) ∧
    (hdmOk (run.ldc .west 0).hdm 0 { size := 2 ^ 28 } = true ∧ hdmOk (run.ldc .west 0).hdm 0 { size := 2 ^ 27 } = false ∧ hdmOk (run.ldc .west 0).hdm 7 { size := 2 ^ 28 } = false) := by
  decide +kernel

/-- Claims `RegisterAccessesAreMade` and `RtcAlarmApplies`: hosts and firmware, with nothing waiting, and the alarm register. -/
theorem witness_RegisterAccessesAreMade :
    (run.west.ctl.waiting = [] ∧ run.east.ctl.waiting = [] ∧ (run.half (host0.via .east)).ctl.underWay host0 = false ∧ (run.half ((Origin.fw .east 3).via .west)).ctl.underWay (.fw .east 3) = false) ∧
    (((run.regWrite State.reset.otp host0 .west pgSAIL 0x040 16 true).settleT).otpc = none ∧ ((run.regWrite State.reset.otp host0 .east 0xFFF 0xFFC 1 false).settleT).otpc = none) ∧
    (host0.via .west = .west ∧ run.west.ctl.wrLatch = [] ∧ run.east.ctl.wrLatch = [] ∧ run.openTxn host0 = none) ∧
    (run.gate host0 .west .west pgPWRS 0x058 true = .pass ∧ run.gate host0 .west .west pgPWRS 0x05C true = .pass ∧ (regAt pgPWRS 0x05C).map (fun e => (e.1, e.2.2.1.off)) = some (.pwrs, 0x058)) := by
  decide +kernel

/-- West's core island has failed. -/
def dark17 : Dev := run.upd .west fun x => { x with pwr := { x.pwr with failed := BitVec.twoPow 22 17 } }

/-- The page of the sailing controller is locked. -/
def locked1 : Dev := run.setReg .west pgSAIL 0x00C 1

/-- Claims `RegisterMessages`, `DarkPages` and `LockedPagesRefuse`: the three messages, a page of a failed island, and a locked page. -/
theorem witness_RegisterMessages :
    (((sent (.regRd host0 0x10040)).fordTake .west 3 FordMsg.isRegRd).map (·.1) = some (.regRd host0 0x10040)) ∧
    (((sent (.regWr host0 0x10040 16)).fordTake .west 3 FordMsg.isRegWr).map (fun p => (((p.2.localWrite State.reset.otp host0 .west .west (addrPage 0x10040) (0x10040 % 4096) 16 true).fordSend .west (.regResp host0 0x10040 0 false)).settleT).otpc) = some none) ∧
    (((sent (.regResp host0 0x10040 16 true)).fordTake .west 3 FordMsg.isRegResp).map (fun p => p.1 == .regResp host0 0x10040 16 true && p.2.west.ctl.waiting.isEmpty && p.2.east.ctl.waiting.isEmpty && ((p.2.emit (.regValue host0 0x10040 16)).settleT).otpc.isNone) = some true) ∧
    (dark17.pageDark .west .west pgSAIL = true ∧ dark17.mgmtLost .west = false ∧ dark17.reaches host0 .west pgSAIL 0x040 = true ∧ (blockOf pgSAIL).isSome = true) ∧
    (locked1.pageDark .west .west pgSAIL = false ∧ locked1.mgmtLost .west = false ∧ locked1.reaches host0 .west pgSAIL 0x040 = true ∧ host0.outside = true ∧ locked1.fld .west pgSAIL 0x00C 0 0 = 1) ∧
    (0x040 ≠ 0x00C ∧ 0x040 / 8 ≠ 7 ∧ 0x010 / 8 ≠ 7 ∧ 0x034 / 8 ≠ 7) := by
  decide +kernel

/-- Host 0 has opened a transaction. -/
def txn0 : Dev := { run with cast := { run.cast with slots := run.cast.slots.set 2 (some { org := host0, id := 1, beginW := 0, beginE := 0 }) } }

/-- Claim `CommandsRefusedInOpenTransaction`: a host with an open transaction. -/
theorem witness_CommandsRefusedInOpenTransaction :
    (host0.via .west = .west ∧ txn0.accBusy .west host0 = false ∧ txn0.openTxn host0 = some 2) ∧
    (txn0.gate host0 .west .west pgMGMT 0x058 true = .pass ∧ txn0.gate host0 .west .west pgFORD 0x040 true = .pass) := by
  decide +kernel

/-- A complex with `n` losses in the last hour. -/
def losses (n : Nat) : Dev := run.upd .west fun x => { x with mgmt := { x.mgmt with losses := List.replicate n 0 } }

/-- East's complex is lost, or held. -/
def eastGone (held : Bool) : Dev := run.upd .east fun x => { x with mgmt := { x.mgmt with lost := true, held := held }, boot := { x.boot with image := some { header := [], body := [] } } }

/-- Claims `ManagementHeartbeats` and `ManagementLossAndReturn`: a running complex, a first and a third loss within the hour, a peer that is lost, one that may restart, and one held or not. -/
theorem witness_ManagementHeartbeats :
    ((run.half .west).boot.running = true ∧ ((sent (.heartbeat 9)).fordTake .west 3 FordMsg.isHeartbeat).map (·.1) = some (.heartbeat 9)) ∧
    (Half.west ∈ run.halves ∧ ((0 :: ((losses 1).mgmtLose .west).west.mgmt.losses).length < ((losses 1).mgmtLose .west).fld .west pgMGMT 0x048 3 0)) ∧
    (((losses 2).mgmtLose .west).fld .west pgMGMT 0x048 3 0 ≤ (0 :: ((losses 2).mgmtLose .west).west.mgmt.losses).length ∧ ((losses 2).mgmtLose .west).uptime < 0 + 3600000000000) ∧
    ((eastGone false).fordUp .west = true ∧ (eastGone false).mgmtLost Half.west.other = true ∧ ((eastGone false).half .west).mgmt.takeover = false) ∧
    ((let x := (eastGone false).half .east; (x.mgmt.lost && !x.mgmt.held && x.boot.image.isSome && !(x.pwr.failed.getLsbD 19) && !(x.pwr.inReset.getLsbD 19))) = true) ∧
    ((eastGone true).takes host0 .west pgMGMT 0x058 = true ∧ (((eastGone true).entry host0 .west pgMGMT 0x058 1).half .east).mgmt.held = true ∧ ((run.entry host0 .west pgMGMT 0x058 1).half .east).mgmt.held = false) := by
  decide +kernel

/-- West refuses its LDs and may be opened from its own image. -/
def refusing : Dev := run.upd .west fun x => { x with pwr := { x.pwr with refusing := true }, flash := { x.flash with formatted := true } }

/-- Claims `IslandEvents` and `AcceptLocal`: islands that work, and a half that refuses and one that does not. -/
theorem witness_IslandEvents :
    (Half.east ∈ run.halves ∧ (run.half .east).pwr.failed.getLsbD 21 = false ∧ (run.half .east).boot.running = true ∧ (run.half .west).pwr.failed = 0) ∧
    (refusing.takes host0 .west pgSAIL 0x080 = true ∧ (refusing.entry host0 .west pgSAIL 0x080 1).acceptMay .west = true ∧ ((refusing.entry host0 .west pgSAIL 0x080 1).half .west).pwr.unsaved = []) ∧
    (run.takes host0 .west pgSAIL 0x080 = true ∧ (run.entry host0 .west pgSAIL 0x080 1).acceptMay .west = false) := by
  decide +kernel

/-- A promotion of tile 3 into frame 0. -/
def promo3 (retried : Bool) (img : Option TileImg) : Promo := { tile := 3, frame := some 0, retried := retried, img := img }

/-- West with that promotion. -/
def promo (retried : Bool) (img : Option TileImg) : Dev := tier1 (dram0 (keyed run)) fun x => { x with promos := [promo3 retried img] }

/-- Claim `PromotionsEnd`: a promotion with a frame and no image, tried once or not, and one whose image waits to be written. -/
theorem witness_PromotionsEnd :
    (((promo false none).half .west).tier.promos.find? (fun p => p.frame.isSome && p.img.isNone && !p.twin) = some (promo3 false none) ∧ (promo3 false none).retried = false) ∧
    ((promo3 true none).retried = true ∧ ((promo true none).sat .west (pgFLSH 0) 0x100).recallCan .west (((promo true none).sat .west (pgFLSH 0) 0x100).tile .west 3).lastSailing = false) ∧
    (((promo false (some {})).half .west).tier.promos.find? (fun p => p.img.isSome) = some (promo3 false (some {})) ∧ (promo3 false (some {})).frame = some 0) := by
  decide +kernel

/-- Tile 3 is dirty in frame 0, and marked for the stream list. -/
def dirty3 (s : TileState) : Dev := (tier1 (dram0 (keyed run)) fun x => { x with streamList := [3] }).setTile .west 3 { state := s, frame := 0, stream := true }

/-- Free frames are low, and tile 3 is clean and may go. -/
def low3 : Dev := ((dirty3 .dramClean).setReg .west pgTIER 0x068 0x7FFFFFFF).setReg .west (pgLDP 0) 0x068 0

/-- Claims `SinksStartAndEnd` and `FramesAndCheckpoints`: a dirty tile of the stream list that may sink, a sink under way, free frames that are low, a raw frame, and a changed block. -/
theorem witness_SinksStartAndEnd :
    (((dirty3 .dramDirty).half .west).tier.streamList.find? (fun t => (dirty3 .dramDirty).sinkable .west t) = some 3) ∧
    (((tier1 run fun x => { x with sinks := [{ tile := 3, loc := 0, img := {} }] }).half .west).tier.sinks.find? (fun k => k.tile == 3) = some { tile := 3, loc := 0, img := {} }) ∧
    (low3.freeFrames .west < (low3.reg .west pgTIER 0x068).toNat ∧ (low3.half .west).tier.streamList.find? (fun t => (tier1 low3 fun x => { x with evicting := true }).evictable .west t) = some 3) ∧
    ((dram0 run).subOk .west 23 = true ∧ ((dram0 run).subFrame .west 23 .freeRaw).isSome = true ∧ ((dram0 run).subFrame .west 0 .freeRaw).isSome = true) ∧
    (((dirty3 .dramDirty).half .west).tier.changed = 0 :: []) := by
  decide +kernel

/-- Tile 3 is DARK and waits to be re-homed. -/
def dark3 : Dev := tile3 .dark (tier1 (dram0 (keyed run)) fun x => { x with rehome := [3] })

/-- Claims `RehomingAndRetirement` and `SinksStartAndEnd`: a DARK tile that waits, a copy under way, and a sink that finds a page. -/
theorem witness_RehomingAndRetirement :
    ((dark3.half .west).tier.rehome.find? (fun t => (dark3.tile .west t).state == .dark) = some 3) ∧
    (((tier1 run fun x => { x with copying := some { old := 0, new := 1, tile := 3 } }).half .west).tier.copying = some { old := 0, new := 1, tile := 3 }) ∧
    (((nand0 (tile3 .dramDirty (dram0 (keyed run)))).sinkStart .west 3).isSome = true) := by
  decide +kernel

/-- `TIER.CMD_ARG` holds a value. -/
def arg (n : Nat) : Dev := (dram0 run).setReg64 .west pgTIER 0x070 n

/-- A tier command runs. -/
def tierBusy : Dev := tier1 (arg 3) fun x => { x with cmd := some { op := 3, arg := 3 } }

/-- Frame 5 is retired. -/
def retired5 : Dev := (arg 5).setFrame .west 5 { state := .retired }

/-- The argument names bank 31 of rank 1 of subchannel 23. -/
def bank : Dev := (arg (23 * 2 ^ 16 + 1 * 2 ^ 8 + 31)).entry host0 .west pgTIER 0x078 6

/-- Claims `TierCommands` and `RetirementCommands`: a backed tile and one beyond, a command that runs, and frames and a bank of each kind. -/
theorem witness_TierCommands :
    ((arg 3).takes host0 .west pgTIER 0x078 = true ∧ (((arg 3).entry host0 .west pgTIER 0x078 1).half .west).tier.cmd = none) ∧
    (bitsOf (((arg 3).entry host0 .west pgTIER 0x078 1).reg64 .west pgTIER 0x070) 35 35 = Half.west.num ∧ ((arg 3).entry host0 .west pgTIER 0x078 1).reg64 .west pgTIER 0x070 % 2 ^ 35 < (((arg 3).entry host0 .west pgTIER 0x078 1).half .west).tier.backed) ∧
    (8 * (((arg 3).entry host0 .west pgTIER 0x078 1).pinned .west + 1) ≤ ((arg 3).entry host0 .west pgTIER 0x078 1).poolFrames .west) ∧
    ((((arg (2 ^ 20)).entry host0 .west pgTIER 0x078 4).half .west).tier.backed ≤ ((arg (2 ^ 20)).entry host0 .west pgTIER 0x078 4).reg64 .west pgTIER 0x070 % 2 ^ 35) ∧
    (tierBusy.takes host0 .west pgTIER 0x078 = true ∧ ((tierBusy.entry host0 .west pgTIER 0x078 1).half .west).tier.cmd ≠ none) ∧
    (24 ≤ frameSub (((arg (24 * 2 ^ 22)).entry host0 .west pgTIER 0x078 5).reg64 .west pgTIER 0x070 % 2 ^ 27)) ∧
    (((arg 5).entry host0 .west pgTIER 0x078 5).reg64 .west pgTIER 0x070 % 2 ^ 27 = 5 ∧ frameSub 5 < 24 ∧ frameLocal 5 < ((arg 5).chan .west (frameSub 5 / 2)).framesPerSub ∧ frameLocal 5 < ((arg 5).entry host0 .west pgTIER 0x078 5).poolOf .west (frameSub 5)) ∧
    (((retired5.entry host0 .west pgTIER 0x078 5).frame .west 5).state = .retired ∧ (((arg 5).entry host0 .west pgTIER 0x078 5).frame .west 5).state = .freeRaw ∧ 5 ∉ (((arg 5).entry host0 .west pgTIER 0x078 5).half .west).tier.retired) ∧
    (bitsOf (bank.reg64 .west pgTIER 0x070) 20 16 = 23 ∧ bitsOf (bank.reg64 .west pgTIER 0x070) 11 8 * 32 + bitsOf (bank.reg64 .west pgTIER 0x070) 4 0 < bank.ranks .west 11 * 32 ∧ (bank.chan .west 11).framesPerSub ≠ 0) ∧
    ((bank.half .west).tier.cmd = none ∧ 2 ^ 27 + 23 * 512 + 63 ∉ (bank.half .west).tier.retired ∧ (bank.half .west).tier.retired.length < 65536) := by
  decide +kernel

/-- Stream 3 of LD 0 over the first 16 tiles of its extent. -/
def window : Dev := (served0.setReg64 .west (pgLDP 0) 0x170 0).setReg .west (pgLDP 0) 0x178 16

/-- Claims `StreamWindows` and `ManifestPeek`: a window outside every extent, one inside, one that is open, and a peek. -/
theorem witness_StreamWindows :
    (run.takes (.ld 0) .west (pgLDP 0) 0x14C = true ∧ (run.entry (.ld 0) .west (pgLDP 0) 0x14C (2 ^ 31 + (run.reg .west (pgLDP 0) 0x14C).toNat)).extents .west 0 = []) ∧
    (window.takes (.ld 0) .west (pgLDP 0) 0x17C = true ∧ (Dev.streamOpen .west 0 3 (window.entry (.ld 0) .west (pgLDP 0) 0x17C (2 ^ 31 + (window.reg .west (pgLDP 0) 0x17C).toNat))).isSome = true) ∧
    (((run.updLd .west 63 fun x => { x with streams := lmod x.streams 3 fun w => { w with isOpen := true, tiles := 16 } }).ldc .west 63).streams.getD 3 {} = { isOpen := true, tiles := 16 }) ∧
    (run.takes host0 .west pgMANF 0x0A0 false = true) := by
  decide +kernel

/-- Frame 5 of subchannel 0 is used by tile 3. -/
def used5 : Dev := (dram0 run).setFrame .west 5 { state := .used, tile := 3 }

/-- Scrub has read all of subchannel 23. -/
def scrubbed : Dev := used5.upd .west fun x => { x with ecc := { x.ecc with scrubPos := [(23, 65536 * 1024)] } }

/-- Claims `ScrubReads` and `SramSweeps`: scrub off, scrub with a used frame to read, and at the pool's end; an empty Landing cache. -/
theorem witness_ScrubReads :
    (((run.setReg .west pgSCOR 0x040 24).fld .west pgSCOR 0x040 31 31 = 0) ∧ used5.fld .west pgSCOR 0x040 31 31 = 1 ∧ 0 ∈ used5.subs .west ∧ used5.islandDark .west 20 = false) ∧
    (used5.scrubNext .west 0 (smGetD (used5.half .west).ecc.scrubPos 0 0) = some (5 * 1024) ∧ (5 * 1024) / 1024 < used5.poolOf .west 0) ∧
    (23 ∈ scrubbed.subs .west ∧ scrubbed.scrubNext .west 23 (smGetD (scrubbed.half .west).ecc.scrubPos 23 0) = none) ∧
    ((run.half .west).land.slots = [] ∧ ((((run.landDrop .west 0).wayDisable .west (0 % 16) true).raise .west pgLAND .landDirLost 0 0).half .west).land.slots = []) := by
  decide +kernel

/-- A repair of the first line of tile 3. -/
def rep3 (s : RepairStage) : Repair := { line := 3 * 1024, stage := s, entry := none, held := [rd0] }

/-- West with that repair. -/
def repairing (s : RepairStage) : Dev := (tile3 .dramClean (dram0 (keyed run))).upd .west fun x => { x with ecc := { x.ecc with repairs := [rep3 s] }, sail := { x.sail with mirrored := 9 } }

/-- Claim `RepairsGoOn`: a repair at its NAND stage, one whose tile is sealed with the twin, and one that holds a read. -/
theorem witness_RepairsGoOn :
    (((repairing .nand).half .west).ecc.repairs.find? (fun r => r.stage == .nand) = some (rep3 .nand)) ∧
    (((repairing .sealWait).half .west).ecc.repairs.find? (fun r => r.stage == .sealWait && (repairing .sealWait).mirroredOk .west ((repairing .sealWait).tile .west (lineTile r.line)).lastSailing) = some (rep3 .sealWait)) ∧
    ((repairing .recall).repairOf .west (3 * 1024) = some (rep3 .recall) ∧ (rep3 .recall).held = rd0 :: [] ∧ rd0.kind = .read) := by
  decide +kernel

/-- Diagnostic frame 0 exists. -/
def diag0 : Dev := (dram0 run).upd .west fun x => { x with ecc := { x.ecc with diagFrames := List.replicate 16 7 } }

/-- Two HARD entries. -/
def hard2 : Dev := run.upd .west fun x => { x with ecc := { x.ecc with sheet := (x.ecc.sheet.set 0 { cls := clsHard }).set 255 { cls := clsHard } } }

/-- Claims `EccdCommands` and `InjectionAndScoresheet`: commands that are taken, a relocation that finds a frame and one that names no subchannel, units that may be injected and one that may not, and a HARD entry. -/
theorem witness_EccdCommands :
    (run.takes host0 .west pgECCD 0x0A0 = true) ∧
    (diag0.takes host0 .west pgECCD 0x0A0 = true ∧ ((diag0.entry host0 .west pgECCD 0x0A0 (5 + 23 * 256)).relocate .west ((diag0.entry host0 .west pgECCD 0x0A0 (5 + 23 * 256)).fld .west pgECCD 0x040 27 24) 23).isSome = true ∧ 24 ≤ 31) ∧
    (run.takes host0 .west pgECCD 0x120 = true ∧ bitsOf (run.reg .west pgECCD 0x120).toNat 27 24 < 2 ∧ bitsOf ((run.setReg .west pgECCD 0x120 (2 ^ 25)).reg .west pgECCD 0x120).toNat 27 24 = 2) ∧
    (run.testOn (State.reset.otp.get .west) .west = false ∧ run.takes host0 .west pgSCOR 0x050 false = true ∧ run.takes host0 .west pgSCOR 0x054 = true) ∧
    ((((run.entry host0 .west pgSCOR 0x054 255).half .west).ecc.sheet.getD 255 {}).cls ≠ clsHard) ∧
    ((((hard2.entry host0 .west pgSCOR 0x054 255).half .west).ecc.sheet.getD 255 {}).cls = clsHard ∧ decide (0 < (hard2.entry host0 .west pgSCOR 0x054 255).hardOpen .west) = decide (0 < ((hard2.entry host0 .west pgSCOR 0x054 255).upd .west fun x => { x with ecc := { x.ecc with sheet := x.ecc.sheet.set 255 { cls := clsHard, ack := true } } }).hardOpen .west)) := by
  decide +kernel

/-- A subchannel of West in a state. -/
def subIn (k : Nat) (t : SubState) : Dev := (dram0 run).updSub .west k fun c => { c with state := t }

/-- Channel 0 has failed two replays just now. -/
def fails2 : Dev := (dram0 run).updChan .west 0 fun x => { x with replayFails := [0, 0] }

/-- Claims `SubchannelUpkeep` and `ParityAlerts`: subchannels up and in self-refresh, and a first and a third failed replay. -/
theorem witness_SubchannelUpkeep :
    (23 < 24 ∧ (dram0 run).subOk .west 23 = true ∧ ((dram0 run).sub .west 23).state ≠ .selfRefresh ∧ ((dram0 run).sub .west 23).state = .up) ∧
    (((dram0 run).half .west).tier.dramReads = [] ∧ (dram0 run).subHeld .west 23 = false ∧ (dram0 run).fld .west (pgMEMC 11) 0x040 31 16 ≠ 0) ∧
    (((subIn 23 .selfRefresh).sub .west 23).state = .selfRefresh ∧ (dram0 run).liveSubs .west 11 ≠ []) ∧
    ((0 :: (((dram0 run).sat .west (pgMEMC 0) 0x06C).chan .west 0).replayFails).length < 3 ∧ 3 ≤ (0 :: ((fails2.sat .west (pgMEMC 0) 0x06C).chan .west 0).replayFails).length ∧ ((fails2.updChan .west 0 fun x => { x with replayFails := [] }).raise .west (pgMEMC 0) .replayRetrain 0).mgmtLost .west = false) := by
  decide +kernel

/-- A drift retrain of subchannel 3 runs. -/
def slicing : Dev := (dram0 run).updSub .west 3 fun c => { c with driftSlices := 2 }

/-- Claims `Retraining` and `DriftMeasurements`: a CA retrain of one subchannel, a drift retrain under way, and measurements within and beyond the limit. -/
theorem witness_Retraining :
    (((subIn 22 .retraining).sub .west 22).state = .retraining ∧ ((((subIn 22 .retraining).updSub .west 22 fun x => { x with state := x.resume }).raise .west (pgMEMC 11) .trainDone 22).sub .west 23).state ≠ .retraining ∧ (((subIn 22 .retraining).subFail .west 22).sub .west 23).state ≠ .retraining) ∧
    ((slicing.sub .west 3).driftSlices ≠ 0 ∧ (slicing.sub .west 3).state ≠ .retraining ∧ (slicing.sub .west 3).state ≠ .freqChange) ∧
    ((dram0 run).subOk .west 3 = true ∧ ((slicing.driftApply .west 3 []).sub .west 3).driftSlices ≠ 0 ∧ ((dram0 run).driftApply .west 3 [1]).driftFar .west 3 = false) ∧
    ((((dram0 run).driftApply .west 3 [30]).sub .west 3).driftSlices = 0 ∧ ((dram0 run).driftApply .west 3 [30]).driftFar .west 3 = true ∧ (((dram0 run).driftApply .west 3 [30]).raise .west (pgMEMC 1) .driftRetrain 3).mgmtLost .west = false) := by
  decide +kernel

/-- The last island changes its timing set. -/
def change5 : Dev := (dram0 run).upd .west fun x => { x with dram := { x.dram with changing := some (5, true) } }

/-- Claim `TimingSets`: orders before training, in T3 and in T0, and the last island's change. -/
theorem witness_TimingSets :
    ((dram0 run).takes host0 .west (pgMEMC 0) 0x054 = true ∧ run.takes host0 .west (pgMEMC 11) 0x054 = true ∧ ((run.entry host0 .west (pgMEMC 11) 0x054 1).half .west).dram.trained = false) ∧
    ((((dram0 run).entry host0 .west (pgMEMC 0) 0x054 1).half .west).dram.trained = true ∧ (((dram0 run).entry host0 .west (pgMEMC 0) 0x054 1).half .west).thrm.step ≠ 3) ∧
    (((((dram0 run).upd .west fun x => { x with thrm := { x.thrm with step := 3 } }).entry host0 .west (pgMEMC 0) 0x054 1).half .west).thrm.step = 3) ∧
    ((change5.half .west).dram.changing = some (5, true) ∧ (∀ k ∈ change5.isleSubs .west 5, (change5.sub .west k).state ≠ .retraining)) ∧
    (((([10, 11].foldl (fun d c => d.updChan .west c fun x => { x with setB := true }) change5).setIsland .west 6 true).half .west).dram.nextOrder = none) := by
  decide +kernel

/-- Channel 0 of West in training mode. -/
def training0 : Dev := (dram0 run).setReg .west (pgDTRN 0) 0x040 (2 ^ 31 + 2 ^ 26)

/-- The mode register that the read names has been written. -/
def modeSet : Dev := training0.updChan .west 0 fun x => { x with modeRegs := [(modeKey (mrwWord false true 0 8 0), 0x5A)] }

/-- Claims `TrainingRunsStart` and `TrainingRunsEnd`: a channel in training mode and one outside, a run under way, and mode registers written. -/
theorem witness_TrainingRunsStart :
    (training0.takes host0 .west (pgDTRN 0) 0x050 = true ∧ training0.takes host0 .west (pgDTRN 0) 0x058 = true) ∧
    ((∀ op ∈ [1, 2, 3, 4, 5, 6, 7, 8, 9], (training0.entry host0 .west (pgDTRN 0) 0x050 (7 * 65536 + 16 * 256 + op)).fld .west (pgDTRN 0) 0x040 31 31 = 1 ∧
    ((training0.entry host0 .west (pgDTRN 0) 0x050 (7 * 65536 + 16 * 256 + op)).reg .west (pgDTRN 0) 0x04C).toNat % 2147483648 ≠ 0 ∧
    (training0.entry host0 .west (pgDTRN 0) 0x050 (7 * 65536 + 16 * 256 + op)).fld .west (pgDTRN 0) 0x048 31 30 ≠ 3 ∧
    ((training0.entry host0 .west (pgDTRN 0) 0x050 (7 * 65536 + 16 * 256 + op)).chan .west 0).runPending = none)) ∧
    (((dram0 run).entry host0 .west (pgDTRN 11) 0x050 1).fld .west (pgDTRN 11) 0x040 31 31 = 0 ∧ (dram0 run).takes host0 .west (pgDTRN 11) 0x050 = true) ∧
    (((training0.updChan .west 0 fun x => { x with runPending := some 5 }).chan .west 0).runPending = some 5 ∧ 5 ≤ 5) ∧
    (modeSet.takes host0 .west (pgDTRN 0) 0x058 = true ∧ smGet ((modeSet.entry host0 .west (pgDTRN 0) 0x058 (mrwWord false true 0 8 0)).chan .west 0).modeRegs (modeKey (mrwWord false true 0 8 0)) = some 0x5A) := by
  decide +kernel

/-- A preload of one line runs into way 3. -/
def preload1 : Dev := run.upd .west fun x => { x with land := { x.land with preload := some { first := 0, len := 1, way := 3 } } }

/-- The walk of way 15 has written back what it held. -/
def disabling15 : Dev := run.upd .west fun x => { x with land := { x.land with disabling := [15] } }

/-- Claims `LandCommands` and `LandEvents`: commands with none running and with a preload, a walked way, and a drained cache. -/
theorem witness_LandCommands :
    (15 < 16 ∧ run.takes host0 .west pgLAND 0x05C = true ∧ (∀ op ∈ [1, 2, 3], ((run.entry host0 .west pgLAND 0x05C (15 * 65536 + op)).half .west).land.preload = none)) ∧
    (((run.entry host0 .west pgLAND 0x05C (15 * 65536 + 1)).setReg .west pgLAND 0x05C (15 * 65536)).fld .west pgLAND 0x058 17 0 = 0) ∧
    (preload1.takes host0 .west pgLAND 0x05C = true ∧ ((preload1.entry host0 .west pgLAND 0x05C (15 * 65536 + 1)).half .west).land.preload ≠ none) ∧
    ((preload1.half .west).land.preload = some { first := 0, len := 1, way := 3 } ∧ ((rangeTiles 0 1).any fun t => (preload1.tile .west t).state == .rising) = false) ∧
    (15 ∈ (disabling15.half .west).land.disabling ∧ disabling15.landDirty .west (fun k => k % 16 == 15) = false ∧ ((disabling15.half .west).land.buf.any fun b => b.way == 15) = false) ∧
    (((run.upd .west fun x => { x with land := { x.land with state := .draining } }).half .west).land.state = .draining ∧ (run.half .west).land.slots = [] ∧ (run.half .west).land.buf = []) := by
  decide +kernel

/-- An alignment block of a lane, with its inverse number and no parity. -/
def marker (n : BitVec 8) : BitVec 340 := (0xF0C3A5960F#40 ++ n ++ ~~~n ++ 0#284).setWidth 340

/-- Claims `FerryCodewords` and `AlignmentBlocks`: links that are up, a block with the marker and one with neither it nor its inverse. -/
theorem witness_FerryCodewords :
    (((recv []).half .west).fery.link = .session ∧ 15 < 16) ∧
    ((marker 19).extractLsb' 300 40 = 0xF0C3A5960F#40 ∧ (marker 19).extractLsb' 284 8 = ~~~((marker 19).extractLsb' 292 8)) ∧
    ((0 : BitVec 340).extractLsb' 300 40 ≠ 0xF0C3A5960F#40 ∧ (~~~(0 : BitVec 340)).extractLsb' 300 40 ≠ 0xF0C3A5960F#40) := by
  decide +kernel

/-- West with one staged sailing. -/
def staged (x : Staged) (m : List (BitVec 256)) : Dev := (recv m).updFery .west fun f => { f with staged := [x] }

/-- Claims `FerryMessagesWithoutTag`, `SailingCloses` and `SailingsApply`: a `LINK_CTL`, a `MIRROR_LINES` of one line, the sibling's notice, a close with a wrong count and one with a wrong CMAC, and sailings that may be applied and may not. -/
theorem witness_FerryMessagesWithoutTag :
    (((recv [0x13F]).feryNext .west 0x3F fun _ => true).map (·.1) = some [0x13F]) ∧
    (((recv [0x101, 1, 2]).feryNext .west 0x01 fun _ => true).map (·.1) = some [0x101, 1, 2]) ∧
    (((sent (.sibVerified 4)).fordTake .west 0 FordMsg.isSibVerified).map (·.1) = some (.sibVerified 4)) ∧
    (((recv [BitVec.ofNat 256 (0x02 + 4 * 2 ^ 8 + 2 ^ 72)]).feryNext .west 0x02 fun _ => true).map (·.1) = some [BitVec.ofNat 256 (0x02 + 4 * 2 ^ 8 + 2 ^ 72)]) ∧
    (((recv []).half .west).fery.paired = true ∧ ((recv []).half .west).fery.stopTaking = false ∧ (stageTop ((recv []).half .west).fery.staged).1.nLines ≠ sf (BitVec.ofNat 256 (0x02 + 4 * 2 ^ 8 + 2 ^ 72)) 95 72) ∧
    (((recv [BitVec.ofNat 256 (0x02 + 4 * 2 ^ 8)]).feryNext .west 0x02 fun _ => true).map (·.1) = some [BitVec.ofNat 256 (0x02 + 4 * 2 ^ 8)]) ∧
    ((stageTop ((recv []).half .west).fery.staged).1.nLines = sf (BitVec.ofNat 256 (0x02 + 4 * 2 ^ 8)) 95 72 ∧ (stageTop ((recv []).half .west).fery.staged).1.nMsgs = sf (BitVec.ofNat 256 (0x02 + 4 * 2 ^ 8)) 119 96) ∧
    (((staged { s := 4 } []).half .west).fery.staged = [{ s := 4 }] ∧ (staged { s := 4 } []).canApply .west { s := 4 } = false) ∧
    ((staged { s := 4, verified := true, split := true } []).canApply .west { s := 4, verified := true, split := true } = true ∧ ((staged { s := 4 } []).half .west).fery.freed = 0 ∧ ((staged { s := 4 } []).half .west).fery.rcvEnd = none) := by
  decide +kernel

/-- Claims `FerryMessagesWithTag`, `RecallsAndPulls`, `Resyncs`, `FerryHeartbeats` and `Rekeys`: one message of each kind whose TAG passes under a key of zeros and sequence number 0 (the TAGs are CMACs computed by the model's own AES, which `test_aes256` and `test_cmac` check). -/
theorem witness_FerryMessagesWithTag :
    (((recv (msg 0x9f1eb947b776a998e5f2f983149ffb5100000000000000000000000000000503 0)).feryRecv .west 0x03 fun _ => true).1 = some (msg 0x9f1eb947b776a998e5f2f983149ffb5100000000000000000000000000000503 0) ∧ sf (BitVec.ofNat 256 0x9f1eb947b776a998e5f2f983149ffb5100000000000000000000000000000503) 75 72 = 0) ∧
    (((recv (msg 0xed21a312a0e7c4b8d1ed4f6756eb8a3c00000000000001000000000000000503 0)).feryRecv .west 0x03 fun _ => true).1 = some (msg 0xed21a312a0e7c4b8d1ed4f6756eb8a3c00000000000001000000000000000503 0) ∧ sf (BitVec.ofNat 256 0xed21a312a0e7c4b8d1ed4f6756eb8a3c00000000000001000000000000000503) 75 72 ≠ 0) ∧
    (((recv (msg 0x667e30ec8204e594d47d15873cb0bb9b0000000000000000000000000000000b 4)).feryRecv .west 0x0B fun s => sf s 7 6 == 0).1 = some (msg 0x667e30ec8204e594d47d15873cb0bb9b0000000000000000000000000000000b 4)) ∧
    (((recv (msg 0xb804f2a7c409f370ca361e313f02a5b90000000000000000000000000000004b 4)).feryRecv .west 0x0B fun s => sf s 7 6 == 1).1 = some (msg 0xb804f2a7c409f370ca361e313f02a5b90000000000000000000000000000004b 4) ∧ sf (BitVec.ofNat 256 0xb804f2a7c409f370ca361e313f02a5b90000000000000000000000000000004b) 7 6 = 1) ∧
    (((recv (msg 0x2aa8ead6eafbed73b98d3045460da0ea0000000000000000000000000000008b 4)).feryRecv .west 0x0B fun s => sf s 7 6 == 2).1 = some (msg 0x2aa8ead6eafbed73b98d3045460da0ea0000000000000000000000000000008b 4) ∧ sf (BitVec.ofNat 256 0x2aa8ead6eafbed73b98d3045460da0ea0000000000000000000000000000008b) 7 6 = 2) ∧
    (((recv (msg 0x99563a373daea669fe3ebcaecec5373100000000000000000000000000000346 0)).feryRecv .west 0x06 fun s => sf s 7 6 != 3).1 = some (msg 0x99563a373daea669fe3ebcaecec5373100000000000000000000000000000346 0) ∧ sf (BitVec.ofNat 256 0x99563a373daea669fe3ebcaecec5373100000000000000000000000000000346) 7 6 ≠ 0) ∧
    (((recv (msg 0x1957d1dc7bbd88c4b70fb4e59a87e35d000000000000000000000000000003c6 0)).feryRecv .west 0x06 fun s => sf s 7 6 == 3).1 = some (msg 0x1957d1dc7bbd88c4b70fb4e59a87e35d000000000000000000000000000003c6 0) ∧ 3 ∉ ((recv []).half .west).fery.streamWait) ∧
    (((recv (msg 0x548f5b106cbe3fdd4ace141f04d1182c000000000000008001c00000000c0004 0)).feryRecv .west 0x04 fun _ => true).1 = some (msg 0x548f5b106cbe3fdd4ace141f04d1182c000000000000008001c00000000c0004 0)) ∧
    (((recv (msg 0xc0c9ce130355d86c661084c02adbedb00000000000000000000000000000705 2)).feryRecv .west 0x05 fun _ => true).1 = some (msg 0xc0c9ce130355d86c661084c02adbedb00000000000000000000000000000705 2)) ∧
    (((recv (msg 0x660e1d571e1db88aa741f508a24396ec00000000000000000000000000000907 0)).feryRecv .west 0x07 fun _ => true).1 = some (msg 0x660e1d571e1db88aa741f508a24396ec00000000000000000000000000000907 0) ∧ ((recv []).half .west).fery.rcvOn = false) ∧
    (((recv (msg 0xde667d94dd32da75ed945e41895ff12400000000000000000000000000000908 0)).feryRecv .west 0x08 fun _ => true).1 = some (msg 0xde667d94dd32da75ed945e41895ff12400000000000000000000000000000908 0)) ∧
    (((recv (msg 0xe3271f6dabb414c7cbbaa14f5dad1dc700000000000008000000000000000909 1)).feryRecv .west 0x09 fun _ => true).1 = some (msg 0xe3271f6dabb414c7cbbaa14f5dad1dc700000000000008000000000000000909 1) ∧ (BitVec.ofNat 256 0xe3271f6dabb414c7cbbaa14f5dad1dc700000000000008000000000000000909).getLsbD 75 = true) ∧
    (((recv (msg 0x8fbcdaa0eaa91a4eab39829d9d13b5110000000000000000000000000000008a 0)).feryRecv .west 0x0A fun s => sf s 7 6 == 2).1 = some (msg 0x8fbcdaa0eaa91a4eab39829d9d13b5110000000000000000000000000000008a 0)) := by
  decide +kernel

/-- The twin asks for line 3 × 1,024 as of sailing 2. -/
def asked (applied : Nat) (t : TileState) : Dev := ((tile3 t (recv [])).setReg64 .west pgFERY 0x090 applied)

/-- A repair's recall with tag 7 is outstanding. -/
def recalling7 : Dev := (recv []).updFery .west fun f => { f with recalls := [{ rtag := 7, line := 3072, want := 2, why := .repair }] }

/-- Tile 3 is being captured. -/
def capturing3 : Dev := (tile3 .dramClean (recv [])).updFery .west fun f => { f with capturing := [3] }

/-- A source whose walk has ended, and a receiver. -/
def source : Dev := (recv []).updFery .west fun f => { f with srcOn := true, stopSending := false, srcWalked := true }
def receiver : Dev := (recv []).updFery .west fun f => { f with rcvOn := true }

/-- Claims `RecallsAndPulls`, `Resyncs` and `Rekeys`, the states besides: what the recalls, pulls, resyncs and rekeys ask of the state. -/
theorem witness_RecallsAndPulls :
    (2 ^ 27 ≤ (BitVec.ofNat 28 ((asked 1 .blank).reg64 .west pgFERY 0x090) - BitVec.ofNat 28 (sf (BitVec.ofNat 256 0x548f5b106cbe3fdd4ace141f04d1182c000000000000008001c00000000c0004) 97 70)).toNat) ∧
    ((BitVec.ofNat 28 ((asked 2 .blank).reg64 .west pgFERY 0x090) - BitVec.ofNat 28 (sf (BitVec.ofNat 256 0x548f5b106cbe3fdd4ace141f04d1182c000000000000008001c00000000c0004) 97 70)).toNat < 2 ^ 27 ∧ ((asked 2 .blank).tile .west (lineTile (sf (BitVec.ofNat 256 0x548f5b106cbe3fdd4ace141f04d1182c000000000000008001c00000000c0004) 53 8))).state = .blank) ∧
    (((asked 2 .dramClean).tile .west (lineTile (sf (BitVec.ofNat 256 0x548f5b106cbe3fdd4ace141f04d1182c000000000000008001c00000000c0004) 53 8))).state ≠ .blank ∧ ((asked 2 .dramClean).tile .west (lineTile (sf (BitVec.ofNat 256 0x548f5b106cbe3fdd4ace141f04d1182c000000000000008001c00000000c0004) 53 8))).state ≠ .lost ∧ ((asked 2 .dramClean).half .west).fery.rcvOn = false) ∧
    ((((recv []).half .west).fery.recalls.find? fun q => q.rtag == sf (BitVec.ofNat 256 0xc0c9ce130355d86c661084c02adbedb00000000000000000000000000000705) 23 8) = none) ∧
    (((recalling7.half .west).fery.recalls.find? fun q => q.rtag == sf (BitVec.ofNat 256 0xc0c9ce130355d86c661084c02adbedb00000000000000000000000000000705) 23 8) = some { rtag := 7, line := 3072, want := 2, why := .repair } ∧ sf (BitVec.ofNat 256 0xc0c9ce130355d86c661084c02adbedb00000000000000000000000000000705) 27 24 = 0) ∧
    ((capturing3.half .west).fery.capturing = 3 :: [] ∧ TileStateResident ((capturing3.updFery .west fun f => { f with capturing := [] }).tile .west 3).state = true) ∧
    (((recv []).streamTile .west 3).isSome = true ∨ (recv []).streamTile .west 3 = none) ∧
    ((source.half .west).fery.srcOn = true ∧ (source.half .west).fery.stopSending = false ∧ (source.half .west).fery.srcWalked = true ∧ (source.half .west).fery.streamWait = [] ∧ (source.half .west).fery.capturing = [] ∧ (source.half .west).fery.srcEnd = none) ∧
    ((receiver.half .west).fery.rcvOn = true ∧ (receiver.half .west).fery.handback ≠ 1 ∧ ((receiver.setReg64 .west pgFERY 0x060 (receiver.half .west).fery.peerOwnGen).reg64 .west pgFERY 0x090 < 9)) ∧
    (((rekeying 0 0).half .west).fery.rekey.isSome = true ∧ (((rekeying 0 0).half .west).fery.rekey.bind (·.newKeys)).isSome = true ∧ ((rekeying 0 0).half .west).fery.keys.isSome = true) ∧
    (281470681743360 ≤ ((rekeying 281470681743360 0).half .west).fery.txSeq ∧ ((rekeying 281470681743359 0).half .west).fery.txSeq < 281470681743360 ∧ ((rekeying 5 5).half .west).fery.rekeyAt ≤ ((rekeying 5 5).half .west).fery.txSeq) := by
  decide +kernel

/-- West's link up, with keys and a peer that has shown itself, as PRIMARY. -/
def linked : Dev := ((recv []).updFery .west fun f => { f with link := .up }).setFld .west pgFERY 0x044 2 0 1

/-- West's Ferry link in a state, waiting for its retry. -/
def linkIn (l : LinkState) : Dev := run.updFery .west fun f => { f with link := l, retryDue := true }

/-- Claims `SessionsPair` and `FerryTraining`: a link up with keys and pairing, settings that fit, and links that train and that wait for the retry. -/
theorem witness_SessionsPair :
    ((linked.half .west).fery.link = .up ∧ (linked.half .west).fery.keys.isSome = true ∧ (linked.half .west).fery.paired = true ∧ true ≠ linked.single) ∧
    (linked.pairMode = 1 ∧ linked.fld .west pgFERY 0x048 22 0 = 0 ∧ linked.slotSplit = 512 ∧ linked.fld .west pgFERY 0x040 9 8 = 0 ∧ linked.single = false ∧ (linked.half .west).tier.backed ≤ 0) ∧
    (((linkIn .training).half .west).fery.link = .training ∧ ((linkIn .retraining).half .west).fery.link = .retraining ∧ lanesOf ((linkIn .training).fld .west pgFERY 0x040 9 8) = 16) ∧
    (((linkIn .up).half .west).fery.retryDue = true ∧ (linkIn .up).fld .west pgFERY 0x040 0 0 = 1 ∧ ((linkIn .lost).half .west).fery.link ≠ .up) := by
  decide +kernel

/-- The FERY page of a device in a session, as PRIMARY, with a status. -/
def fcmd (st : Nat) (l : LinkState) : Dev := (linked.updFery .west fun f => { f with link := l, eff := { f.eff with mode := 1 } }).setFld .west pgFERY 0x0CC 31 28 st

/-- Claims `FerryCommands` and `SessionSetUp`: commands while none is BUSY and while one is, in a session and out of it, a source that may start, and an INITIAL and an offer while a rekey runs. -/
theorem witness_FerryCommands :
    ((fcmd 0 .session).takes host0 .west pgFERY 0x0C8 = true ∧ ([1, 2, 3, 4].all fun op => ((fcmd 0 .session).entry host0 .west pgFERY 0x0C8 op).fld .west pgFERY 0x0CC 31 28 != 1) = true) ∧
    (((fcmd 0 .session).entry host0 .west pgFERY 0x0C8 1).pairMode = 1 ∧ (((fcmd 0 .session).entry host0 .west pgFERY 0x0C8 2).half .west).fery.link = .session ∧ (((fcmd 0 .up).entry host0 .west pgFERY 0x0C8 2).half .west).fery.link ≠ .session) ∧
    ((((fcmd 0 .session).entry host0 .west pgFERY 0x0C8 3).half .west).fery.paired = true ∧ ((fcmd 0 .session).entry host0 .west pgFERY 0x0C8 3).ownsRange .west = true ∧ (((fcmd 0 .session).entry host0 .west pgFERY 0x0C8 3).half .west).fery.srcOn = false) ∧
    ((((fcmd 0 .session).entry host0 .west pgFERY 0x0C8 3).half .west).fery.fenced = false ∧ (((fcmd 0 .session).entry host0 .west pgFERY 0x0C8 3).half .west).fery.genConflict = false) ∧
    (((fcmd 0 .session).entry host0 .west pgFERY 0x0C8 4).fld .west pgFERY 0x040 0 0 = 1 ∧ ((fcmd 1 .session).entry host0 .west pgFERY 0x0C8 4).fld .west pgFERY 0x0CC 31 28 = 1 ∧ (fcmd 1 .session).takes host0 .west pgFERY 0x0C8 = true) ∧
    ((((recv []).updFery .west fun f => { f with retraining := true }).half .west).fery.retraining = true) ∧
    (((rekeying 0 0).updFery .west fun f => { f with link := .up, rxSlots := [0x0A] }).feryNext .west 0x0A (fun s => sf s 7 6 == 0) |>.isSome) := by
  decide +kernel

/-- The operation that a descriptor of LUN 0's page 0 stands for. -/
def op0 (op : Nat) : NandOp := opOfDesc 0 (descOf op 0) {} []

/-- West with that operation put on island 0's first ring. -/
def queued (op : Nat) : Dev := (nand0 run).updIsle .west 0 fun x => { x with ops := x.ops ++ [op0 op] }

/-- Claim `FlashSubmissions`: a ring with room, a well-formed descriptor of each opcode and a malformed one, and a program that its stripe takes and one that it does not. -/
theorem witness_FlashSubmissions :
    ((((nand0 run).isle .west 0).ops.filter (·.ring == 0)).length < ringSize 0 ∧ (((nand0 run).isle .west 3).ops.filter (·.ring == 2)).length < ringSize 2) ∧
    (([1, 2, 3, 4, 5, 6, 7].all fun op => !((queued op).descBad .west 0 (descOf op 0) (op0 op) false) && !((queued op).stripeBad .west (nandStripe (op0 op).addr)) && !(((queued op).half .west).flash.failedLuns.contains (nandLun (op0 op).addr))) = true) ∧
    (((nand0 run).isle .west 0).chans.getD (nandChan (op0 1).addr % 8) 0 ≠ 3 ∧ (queued 1).descBad .west 1 (descOf 1 0) (op0 1) false = true) ∧
    (((queued 2).programCheck .west (op0 2)).isRight = true ∧ (((nand0 run).updIsle .west 0 fun x => { x with ops := x.ops ++ [{ op0 2 with addr := 5 }] }).programCheck .west { op0 2 with addr := 5 }).isLeft = true) := by
  decide +kernel

/-- LUN 0 runs an operation, with a read queued behind it. -/
def running (op : Nat) : Dev := (nand0 run).updIsle .west 0 fun x => { x with ops := [{ op0 op with issued := true }, { op0 1 with tag := 9 }] }

/-- Two time-outs of LUN 0 within the second. -/
def timed2 : Dev := (running 2).updFlash .west fun x => { x with timeouts := [(0, 0), (0, 0)] }

/-- A format runs. -/
def formatting : Dev := run.updFlash .west fun x => { x with formatting := true }

/-- `DIAG_DESC` of island 3 holds READ_PAGE_RAW. -/
def diagDesc (busy : Bool) : Dev := (run.setReg .west (pgFLSH 3) 0x080 4).updIsle .west 3 fun x => { x with diagBusy := busy }

/-- Claims `FlashOperations`, `FlashChannels`, `Formatting` and `DiagnosticSlot`: a LUN that runs each kind of operation, reads that wait behind it, channels up and training, and a format and a diagnostic slot idle and busy. -/
theorem witness_FlashOperations :
    (([2, 3, 6].all fun op => (running op).runningOp .west 0 == some { op0 op with issued := true }) = true ∧ (op0 3).oneBlock = false ∧ (op0 2).isRead = false) ∧
    ((((running 2).isle .west (lunIsle 0)).ops.any fun q => nandLun q.addr == 0 && q.isRead && !q.issued) = true) ∧
    ((((running 3).isle .west (lunIsle 0)).ops.find? fun o => nandLun o.addr == 0 && o.issued && o.op == 3 && !o.overdue) = some { op0 3 with issued := true }) ∧
    (2 + 1 = ((((timed2.completeOp .west 0 { op0 2 with issued := true } 8 NandEnd.none).sat .west (pgFLSH 0) 0x104).raise .west (pgFLSH 0) .flashTimeout).half .west).flash.timeouts.length + 1) ∧
    ((nand0 run).chanState .west 0 = 2 ∧ (((nand0 run).updIsle .west 3 fun x => { x with chans := [0, 0, 0, 0, 0, 0, 0, 1] }).chanState .west 31 = 1)) ∧
    (run.takes host0 .west (pgFLSH 0) 0x078 = true ∧ ((run.entry host0 .west (pgFLSH 0) 0x078 1).half .west).flash.formatting = false ∧ ((run.entry host0 .west (pgFLSH 0) 0x078 1).half .west).flash.formatted = false) ∧
    (formatting.takes host0 .west (pgFLSH 0) 0x078 = true ∧ ((formatting.entry host0 .west (pgFLSH 0) 0x078 1).half .west).flash.formatting = true ∧ (formatting.half .west).flash.formatting = true) ∧
    ((diagDesc false).takes host0 .west (pgFLSH 3) 0x0C0 = true ∧ (((diagDesc false).entry host0 .west (pgFLSH 3) 0x0C0 (2 ^ 31)).isle .west 3).diagBusy = false ∧ (((diagDesc false).entry host0 .west (pgFLSH 3) 0x0C0 (2 ^ 31)).reg .west (pgFLSH 3) 0x080).toNat % 256 = 4) ∧
    ((diagDesc true).takes host0 .west (pgFLSH 3) 0x0C0 = true ∧ (((diagDesc true).entry host0 .west (pgFLSH 3) 0x0C0 (2 ^ 31)).isle .west 3).diagBusy = true) := by
  decide +kernel

/-- Slot 5 has both phases. -/
def both5 : Dev := (run.updSlot .west 5 fun k => { k with state := .active, loadedA := true, loadedB := true }).updSlot .east 5 fun k => { k with state := .active, loadedA := true, loadedB := true }

/-- Another key command runs. -/
def keysBusy : Dev := { run with keys := { run.keys with cmd := some { org := host0, half := .west, op := 3, slot := 4, phase := false, deferred := true } } }

/-- Slot 5 is being erased in both halves, at a generation. -/
def erasing (g : BitVec 32) : Dev := (run.updSlot .west 5 fun k => { k with state := .erasing, gen := g }).updSlot .east 5 fun k => { k with state := .erasing, gen := g }

/-- Slot 0 of West walks, and a tile names it. -/
def walking (s : TileState) : Dev := tile3 s (run.updSlot .west 0 fun k => { k with walking := true })

/-- A sweep of slot 0 whose walks have ended or not, with tile 3 under the old phase or no tile. -/
def sweeping (t : Bool) : Dev := { (if t then tile3 .dramDirty (run.updSlot .west 0 fun k => { k with cur := true }) else run) with keys := { run.keys with sweep := some { slot := 0, doneW := true, doneE := true } } }

/-- Claims `KeyCommands`, `KeyLoadsAndErasures` and `KeyWalks`: commands that may act and that may not, a deferred load, a slot being erased, walks with tiles and without, and a sweep that ends. -/
theorem witness_KeyCommands :
    (run.takes host0 .west pgKEYS 0x040 = true ∧ run.takes host0 .west pgKEYS 0x040 false = true ∧ (run.wake .west (pageIsland pgKEYS)).keys.cmd = none) ∧
    ((run.entry host0 .west pgKEYS 0x040 (3 + 5 * 16 + 2 ^ 14)).keysJudge host0 .west (3 + 5 * 16 + 2 ^ 14) = 0 ∧ (run.entry host0 .west pgKEYS 0x040 (5 + 1023 * 16)).keysJudge host0 .west (5 + 1023 * 16) = 0 ∧ (run.entry host0 .west pgKEYS 0x040 (6 + 5 * 16)).keysJudge host0 .west (6 + 5 * 16) = 0) ∧
    ((run.entry host0 .west pgKEYS 0x040 (2 + 5 * 16)).keysJudge host0 .west (2 + 5 * 16) ≠ 0 ∧ (run.entry host0 .west pgKEYS 0x040 (4 + 5 * 16)).keysJudge host0 .west (4 + 5 * 16) ≠ 0) ∧
    ((both5.entry host0 .west pgKEYS 0x040 (4 + 5 * 16)).keysJudge host0 .west (4 + 5 * 16) = 0) ∧
    ((keysBusy.entry host0 .west pgKEYS 0x040 (5 + 5 * 16)).keysJudge host0 .west (5 + 5 * 16) ≠ 0 ∧ keysBusy.takes host0 .west pgKEYS 0x040 = true) ∧
    ((keysBusy.keys.cmd.map (·.deferred)) = some true ∧ (keysBusy.half .west).ciph.queue = [] ∧ (keysBusy.half .east).ciph.queue = []) ∧
    ((erasing 0).single = false ∧ ((erasing 0).kslot .west 5).state = .erasing ∧ ((erasing 0).kslot .east 5).state = .erasing ∧ (erasing 0).keys.cmd = none ∧ ((erasing 0).kslot .west 5).gen ≠ 0xFFFFFFFF ∧ ((erasing 0xFFFFFFFF).kslot .west 5).gen = 0xFFFFFFFF) ∧
    (((walking .nandOnly).kslot .west 0).walking = true ∧ ((walking .nandOnly).eraseWalk .west 0).walkLeft .west 0 = false ∧ ((walking .dark).eraseWalk .west 0).walkLeft .west 0 = true) ∧
    ((sweeping false).keys.sweep.isSome = true ∧ ((sweeping false).tilesOfSlot .west 0).filter (fun t => (sweeping false).oldPhase .west 0 t) = [] ∧ ((((sweeping true).tilesOfSlot .west 0).filter fun t => (sweeping true).oldPhase .west 0 t).filter fun t => (sweeping true).sweepable .west t).find? (fun t => decide (0 ≤ t)) = some 3) ∧
    (((sweeping true).tile .west 3).state = .dramDirty ∧ (sweeping false).split = false ∧ (∀ t ∈ (sweeping false).tilesOfSlot .west 0, (sweeping false).oldPhase .west 0 t = false) ∧ (∀ t ∈ (sweeping false).tilesOfSlot .east 0, (sweeping false).oldPhase .east 0 t = false)) := by
  decide +kernel

/-- A request of an opcode over `n` bytes of zeros, with its key from slot 0 (`src` 0) or the session (1). -/
def creq (op src n : Nat) : CiphReq := { id := 0, bits := BitVec.ofNat 512 (op + src * 2 ^ 24 + n * 2 ^ 104), src := [], org := host0, queuedAt := 0 }

/-- West with a request in its queue. -/
def withReq (q : CiphReq) : Dev := run.upd .west fun x => { x with ciph := { x.ciph with queue := [q] } }

/-- Claims `CipherRequests` and `CipherEngine`: a request in order and one that is not, a core that runs one, one that has waited, and a core without work. -/
theorem witness_CipherRequests :
    (([1, 2].all fun op => !(creq op 0 4096).bad) = true ∧ ([3, 4, 8].all fun op => !(creq op 1 16).bad) = true ∧ (creq 9 1 24).bad = false ∧ (creq 0 0 0).bad = true) ∧
    (([5, 6, 7].all fun op => !(creq op 0 65792).bad) = true) ∧
    ((run.half .west).ciph.waiting = [] ∧ (run.half .west).ciph.room (creq 3 1 16) = true) ∧
    (((withReq { creq 6 0 65792 with core := some 3 }).half .west).ciph.running 3 = some { creq 6 0 65792 with core := some 3 } ∧ (creq 6 0 65792).f 7 0 = 6) ∧
    ((((withReq { creq 3 1 16 with bits := (creq 3 1 16).bits + 2 ^ 17 }).half .west).ciph.queue.find? fun q => !q.aged && q.core.isNone && decide (1 < q.f 17 16)).isSome = true) ∧
    ((run.half .west).ciph.coreFailed.getLsbD 3 = false ∧ ((run.half .west).ciph.queue.filter fun q => q.core == some 3) = []) ∧
    (cmac (run.kslot .west 0).cmac.toNat ((creq 6 0 16).trailer.take 240 ++ (creq 6 0 16).bytes.take 65536) ≠ (creq 6 0 16).trailer.drop 240) := by
  decide +kernel

/-- West runs an image of security version 5. -/
def svn5 : Dev := run.upd .west fun x => { x with boot := { x.boot with svn := 5 } }

/-- A device whose ROMs may run; West waits for an image or runs one. -/
def roms : Dev := run.eachHalf fun d h => d.upd h fun x => { x with boot := {} }

/-- Statement `OtpCommands` and claims `MeasurementSelector`, `RomBoots` and `FirmwareUpdates`: fuse commands that may act and that may not, ROMs that may run, rows that differ or do not, and complexes that wait for an image, run or have halted. -/
theorem witness_OtpCommands :
    (svn5.otpc = none ∧ svn5.takes host0 .west pgOTPC 0x058 = true ∧ (svn5.entry host0 .west pgOTPC 0x058 (5 * 256 + 1)).otpcJudge (State.reset.otp.get .west) .west 1 5 = 0 ∧ (svn5.entry host0 .west pgOTPC 0x058 (6 * 256 + 1)).otpcJudge (State.reset.otp.get .west) .west 1 6 ≠ 0) ∧
    ((svn5.entry host0 .west pgOTPC 0x058 (1 * 256 + 2)).otpcJudge { State.reset.otp.west with signer0 := 1 } .west 2 1 = 0 ∧ (svn5.entry host0 .west pgOTPC 0x058 (4 * 256 + 3)).otpcJudge (State.reset.otp.get .west) .west 3 4 = 0 ∧ (svn5.entry host0 .west pgOTPC 0x058 (6 * 256 + 4)).otpcJudge (State.reset.otp.get .west) .west 4 6 = 0) ∧
    (run.takes host0 .west pgBOOT 0x050 false = true ∧ run.romMay .west = false) ∧
    (roms.romMay .west = true ∧ roms.romMay .east = true ∧ roms.single = false ∧ roms.fordUp .east = true) ∧
    ((roms.fordBoth fun f => { f with state := .absent }).single = true ∧ (roms.fordBoth fun f => { f with state := .absent }).romMay .west = true ∧ State.reset.otp.west.life ≠ 0 ∧ State.reset.otp.west.life ≠ 4 ∧ bitsOf roms.west.strap.eff.toNat 1 0 ≠ 3) ∧
    (({ State.reset.otp.west with lifecycle := { a := 0, b := 0, c := 0 } } : OtpRow).life = 0 ∧ State.reset.otp.west.sameOnce State.reset.otp.east = true ∧ (otpExchange State.reset.otp).west.life = 2) ∧
    (((roms.upd .west fun x => { x with boot := { running := true, image := some { header := [], body := [] } } }).west.boot.image).isSome = true) ∧
    (((roms.fordBoth fun f => { f with state := .absent }).upd .west fun x => { x with boot := { halt := 4 } }).west.boot.halt = 4 ∧ (roms.fordBoth fun f => { f with state := .absent }).east.boot.halt ≠ 4 ∧ run.west.boot.halt ≠ 4 ∧ run.west.boot.running = true) := by
  decide +kernel

/-- Requester 0 in a state, with an operator's chain of two bytes and a large message half fetched. -/
def talking (x : Spdm) : Dev := { run with spdm := [x], flash := { run.flash with cert1 := [1, 2] } }

/-- Claims `SpdmOpening` and `SpdmSessions`: a requester before and after each step, and a certificate chain that is there or not. -/
theorem witness_SpdmOpening :
    ((talking { requester := 0 }).spdmOf 0 = some { requester := 0 } ∧ (((talking { requester := 0 }).half ((talking { requester := 0 }).spdmHalf 0)).boot.running && !((talking { requester := 0 }).mgmtLost ((talking { requester := 0 }).spdmHalf 0))) = true) ∧
    ((talking { requester := 0, versioned := true }).spdmOf 0 = some { requester := 0, versioned := true } ∧ (talking { requester := 0, versioned := true, caps := true }).spdmOf 0 = some { requester := 0, versioned := true, caps := true }) ∧
    ((2 ^ 8).testBit 8 = true ∧ (2 ^ 2).testBit 2 = true ∧ (0).testBit 8 = false) ∧
    ((talking { requester := 0, versioned := true, caps := true, algs := true, chunkOut := [1] }).spdmOf 0 = some { requester := 0, versioned := true, caps := true, algs := true, chunkOut := [1] }) ∧
    (((talking { requester := 0 }).chain .west 1).isSome = true ∧ (talking { requester := 0 }).chain .west 0 = none ∧ (talking { requester := 0 }).chain .west 2 = none ∧ State.reset.otp.west.life = 2) := by
  decide +kernel

/-- A device whose PWRFAIL_N fell, riding through or not. -/
def fell (ride : Bool) : Dev := run.eachPwr fun p => { p with pwrfailLow := true, rideThrough := ride }

/-- West in a step of Last Ferry, with nothing flushed or pushed, or a complete record in hand. -/
def lf (n : Nat) (c : Bool) : Dev := run.upd .west fun x => { x with pwr := { x.pwr with state := .lastFerry, lfStep := n, lf := { x.pwr.lf with complete := c } } }

/-- Claims `PowerFailure`, `PowerCommands`, `LastFerryDrains` and `LastFerryRecords`: the ride-through in each case, commands in service and in Last Ferry, and Last Ferry's steps 3, 5 and 6. -/
theorem witness_PowerFailure :
    (((fell true).half .west).pwr.rideThrough = true ∧ ((fell true).half .east).pwr.rideThrough = true ∧ (fell true).halves.filter (fun h => ((fell true).half h).pwr.rideThrough && ((fell true).half h).pwr.pwrfailLow) ≠ []) ∧
    (((fell false).half .west).pwr.rideThrough = false ∧ ((fell false).half .east).pwr.rideThrough = false) ∧
    (run.takes host0 .west pgPWRS 0x04C = true ∧ (((run.entry host0 .west pgPWRS 0x04C 1).together .west).any fun k => (run.entry host0 .west pgPWRS 0x04C 1).inLf k) = false) ∧
    ((lf 3 false).takes host0 .west pgPWRS 0x04C = true ∧ ((((lf 3 false).entry host0 .west pgPWRS 0x04C 1).together .west).any fun k => ((lf 3 false).entry host0 .west pgPWRS 0x04C 1).inLf k) = true) ∧
    (((lf 3 false).half .west).pwr.state = .lastFerry ∧ ((lf 3 false).half .west).pwr.lfStep = 3 ∧ ((lf 3 false).half .west).pwr.flushed = false ∧ ((lf 3 false).half .west).pwr.pushed = false) ∧
    (((lf 5 false).half .west).pwr.lfStep = 5 ∧ ((lf 6 true).half .west).pwr.lfStep = 6 ∧ ((lf 6 true).half .west).pwr.lf.complete = true ∧ 0 < 1 ∧ ((lf 6 false).half .west).pwr.lf.complete = false) := by
  decide +kernel

/-- A moored device whose alarm is armed. -/
def moored : Dev := ({ run with supv := { run.supv with seq := .moored } } : Dev).setReg64 .west pgPWRS 0x058 (2 ^ 63 + 5)

/-- A device whose halves have not started. -/
def cold : Dev := run.eachPwr fun p => { p with started := false }

/-- A half that re-arms, and one whose first DDR island's subchannels rest. -/
def rearming : Dev := run.upd .west fun x => { x with pwr := { x.pwr with rearm := true } }
def resting : Dev := [0, 1, 2, 3].foldl (fun d k => d.updSub .west k fun c => { c with state := .selfRefresh }) (dram0 run)

/-- Claims `AlarmWakes`, `ColdStarts` and `RearmingAndIdleGates`: an alarm armed while MOORED and one that is not, starts that may happen and may not, with too little DRAM and with enough, and a half that re-arms. -/
theorem witness_AlarmWakes :
    (moored.supv.g0 = true ∧ moored.split = false ∧ 2 ^ 63 ≤ moored.reg64 .west pgPWRS 0x058 ∧ moored.supv.seq = .moored ∧ moored.supv.tripped = false ∧ Half.east ∈ moored.halves ∧ run.reg64 .west pgPWRS 0x058 < 2 ^ 63) ∧
    (run.coldMay .west = false ∧ cold.coldMay .west = true ∧ cold.coldMay .east = true ∧ (cold.half .west).pwr.record = none ∧ (cold.half .west).pwr.waking = false) ∧
    ((rearming.half .west).pwr.rearm = true ∧ (rearming.half .west).tier.manf = []) ∧
    (resting.fld .west pgPWRS 0x040 15 8 ≠ 0 ∧ ([0, 1, 2, 3].all fun k => (resting.sub .west k).state == .selfRefresh) = true) := by
  decide +kernel

/-- Both halves promote to generation 7. -/
def promoting : Dev := run.eachHalf fun d h => d.updFery h fun f => { f with promoting := some (7, false) }

/-- Statement `PromotionsOfTheTwin`: both halves promote. -/
theorem witness_PromotionsOfTheTwin :
    ((promoting.half .west).fery.promoting = some (7, false) ∧ (promoting.half .east).fery.promoting = some (7, false) ∧ (promoting.half .west).fery.staged = [] ∧ (promoting.half .east).fery.staged = [] ∧ 7 < 2 ^ 64) := by
  decide +kernel

/-- One transaction in slot 0. -/
def cast1 (d : Dev) (t : Txn) : Dev := { d with cast := { d.cast with slots := d.cast.slots.set 0 (some t) } }

/-- Host 0's transaction 1. -/
def t1 (committing voted : Bool) (staged : List (Half × Nat × Word)) : Txn := { org := host0, id := 1, committing := committing, voted := voted, staged := staged, beginW := 0, beginE := 0 }

/-- Claims `CastCommands` and `CastExchange`, and statement `CommitDecisions`: origins with and without a transaction, each message of the exchange with its transaction, and commits of each kind. -/
theorem witness_CastCommands :
    (host0.via .west = .west ∧ run.accBusy .west host0 = false ∧ run.gate host0 .west .west pgCAST 0x040 true = .pass ∧ run.gate host0 .west .west pgCAST 0x040 false = .pass ∧ run.openTxn host0 = none) ∧
    ((run.cast.slots.findIdx? fun t => t.any fun t => t.org == host0) = none ∧ (run.cast.slots.findIdx? fun t => t.isNone) = some 0) ∧
    ((cast1 run (t1 false false [])).openTxn host0 = some 0 ∧ (cast1 run (t1 false false [])).cast.slots.getD 0 none = some (t1 false false [])) ∧
    ((((cast1 (sent (.castPrepare 1 5)) (t1 true false [])).fordTake .west 0 FordMsg.isCastPrepare).map fun p => (p.1, p.2.txnOf 1)) = some (.castPrepare 1 5, some (0, t1 true false []))) ∧
    ((((cast1 (sent (.castVote 1 true)) (t1 true false [])).fordTake .west 0 FordMsg.isCastVote).map fun p => (p.1, p.2.txnOf 1)) = some (.castVote 1 true, some (0, t1 true false []))) ∧
    (((((cast1 (sent (.castVote 1 true)) (t1 true false [])).upd .west fun x => { x with sail := { x.sail with current := 5 } }).fordTake .west 0 FordMsg.isCastVote).map fun p => ((p.2.updTxn 0 fun t => { t with voted := true }).fordSend .west (.castApply 1 true)).sails .west) = some true) ∧
    ((((cast1 (sent (.castVote 1 false)) (t1 true false [])).fordTake .west 0 FordMsg.isCastVote).map fun p => (p.1, p.2.castJudge .west 0 (t1 true false []))) = some (.castVote 1 false, none)) ∧
    (((((cast1 (sent (.castApply 1 true)) (t1 true false [])).upd .west fun x => { x with sail := { x.sail with current := 5 } }).fordTake .west 0 FordMsg.isCastApply).map fun p => (p.1, (p.2.updTxn 0 fun t => { t with otherKnows := true }).sails .west)) = some (.castApply 1 true, true)) ∧
    ((t1 true true []).committing = true ∧ (t1 true true []).voted = true ∧ (t1 true true []).allApplied = true ∧ (t1 false false []).committing = false ∧ 0 < run.cast.slots.length) := by
  decide +kernel

/-- LENGTH of 16 µs in both halves, and a ceiling of 63 frames. -/
def len16 : List (Half × Nat × Word) := [(.west, regKey pgSAIL 0x040, 16), (.east, regKey pgSAIL 0x040, 16)]
def ceil63 : List (Half × Nat × Word) := [(.west, regKey (pgLDP 0) 0x06C, 63)]

/-- The device with West's coordinator committing a transaction in sailing 5. -/
def deciding (l : List (Half × Nat × Word)) : Dev := (cast1 (sailing5 [] 0) (t1 false false l)).updTxn 0 fun _ => { t1 false false l with committing := true, coord := .west }

/-- LD 0 with capacity in West and a floor above West's pool. -/
def floored : Dev := (dram0 served0).putWord .west 0x100 0x068 0x7FFFFFFF

/-- Statements `CommitDecisions` and `FloorAndCeilingChecks`: a commit that changes both halves and passes, one that is refused, a ceiling of 63 and a floor above the pool. -/
theorem witness_CommitDecisions :
    (([len16, ceil63].all fun l => l.all fun x => !(alarmKey x.2.1)) = true ∧ (deciding len16).jFull .west = false ∧ (deciding len16).jFull .east = false) ∧
    ((t1 false false len16).touches Half.west.other = true ∧ (deciding len16).sails .west = true ∧ (deciding len16).castJudge .west 0 (t1 false false len16) = none) ∧
    (((deciding ceil63).castJudge .west 0 (t1 false false ceil63)).isSome = true) ∧
    (((ceil63.foldl (fun n e => n.putWord e.1 (e.2.1 / 1024) (e.2.1 % 1024 * 4) e.2.2) run).reg .west (pgLDP 0) 0x06C).toNat = 63) ∧
    (Half.west ∈ floored.halves ∧ floored.poolFrames .west < 4 * lsum ((floored.bound.filter fun e => floored.ldIn e.1 e.2 .west).map fun e => (floored.reg e.1 (pgLDP e.2) 0x068).toNat)) := by
  decide +kernel

/-- West's ring holds entry 4, and is 75% full. -/
def ring4 : Dev := run.upd .west fun x => { x with flash := { x.flash with formatted := true }, ctl := { x.ctl with unspilled := 49152, journal := [{ time := 0, new := 1, old := 0, jseq := 4, result := 1, cls := 1, org := 0, word := 16, page := 16, half := .west }] } }

/-- Statements `JournalPages` and `JournalEntries`: an entry that is held, an event number not yet given, a ring at 75% that may be spilled, and a complex that runs. -/
theorem witness_JournalPages :
    (run.takes host0 .west pgJRNL 0x058 false = true ∧ run.takes host0 .west pgJRNL 0x078 false = true ∧ ((run.wake .west (pageIsland pgJRNL)).half .west).ctl.evSeq < 1) ∧
    (ring4.takes host0 .west pgJRNL 0x058 false = true ∧ ((((ring4.wake .west (pageIsland pgJRNL)).half .west).ctl.journal ++ ((ring4.wake .west (pageIsland pgJRNL)).half .west).ctl.spill.flatten).find? (fun j => j.jseq == 4)).isSome = true ∧ ((run.half .west).ctl.journal ++ (run.half .west).ctl.spill.flatten).find? (fun j => j.jseq == 4) = none) ∧
    (49152 ≤ (ring4.half .west).ctl.unspilled ∧ ring4.spillOk .west = true ∧ (run.half (run.ringHalf .west)).boot.running = true ∧ (run.half (run.ringHalf .west)).ctl.unspilled < 65536) := by
  decide +kernel

/-- The supervisor in a state, at a step, with the groups of `g` good. -/
def sup (q : SupvSeq) (n : Nat) (g : BitVec 8) : Dev := { run with supv := { run.supv with seq := q, step := n, good := g, seqIn := false } }

/-- A down-sequence with group 6 next. -/
def downing (k : Nat) : Dev := { run with supv := { run.supv with seq := .down, downKind := k, down := [6, 5], en := 0x1F } }

/-- Claims `UpSequence` and `DownSequence`: the supervisor at each place of its sequences, and commands of both halves. -/
theorem witness_UpSequence :
    ((sup .standby 0 1).supv.seqIn = false ∧ (sup .standby 0 1).supv.g0 = true ∧ (sup .standby 0 1).supv.tripped = false ∧ (sup .off 0 1).supv.seq = .off ∧ (sup .off 0 1).supv.alarmDue = false) ∧
    (([1, 2, 3, 4, 5, 6, 7].all fun n => (sup .up n 1).supv.step == n && !((sup .up n 1).supv.good.getLsbD n)) = true ∧ (sup .up 4 1).supv.good.getLsbD 5 = false) ∧
    ((sup .up 6 0x7F).supv.good.getLsbD 6 = true ∧ (sup .up 6 0x7F).nextGroup 6 = 8) ∧
    ((sup .holdRelease 4 0x1F).takes host0 .west pgSUPV 0x068 = true ∧ ((sup .holdRelease 4 0x1F).entry host0 .west pgSUPV 0x068 1).supv.seq = .holdRelease ∧ (run.entry host0 .west pgSUPV 0x068 1).supv.seq ≠ .holdRelease ∧ run.takes (.host 4) .east pgSUPV 0x068 = true) ∧
    ((run.halves.any fun h => ({ run with supv := { run.supv with seqIn := false, upPending := false } } : Dev).live h) = true ∧ run.fld .west pgPWRS 0x040 1 1 = 1) ∧
    ((downing 0).supv.seq = .down ∧ (downing 0).supv.down.head? = some 6 ∧ (downing 0).supv.en.getLsbD (railGroup 9) = false ∧ (downing 0).supv.downKind ≠ 2 ∧ (downing 2).supv.downKind = 2) ∧
    (((((downing 0).countFault 9 3).raise .west pgSUPV .fallSlow 9).supv.down.head? = some (railGroup 9)) ∧ ((((downing 0).countFault 7 3).raise .west pgSUPV .fallSlow 7).supv.down.head? ≠ some (railGroup 7))) := by
  decide +kernel

/-- RESET_N low before a cold reset, in a device with one half. -/
def low1 : Dev := { (run.eachPwr fun p => { p with state := .off, started := false }).fordBoth (fun f => { f with state := .absent }) with supv := { run.supv with resetN := false, seq := .standby } }

/-- Claims `SupplyFaults`, `SupplyCounters`, `ResetPin` and `AlwaysOnSupply`, and statement `HousekeepingRounds`: faults while the groups come up, counters, RESET_N in each case, G0, and rounds of both kinds. -/
theorem witness_SupplyFaults :
    (Half.east ∈ (sup .up 5 0x1F).halves ∧ 10 < 11 ∧ (sup .up 5 0x1F).supv.g0 = true ∧ (sup .up 5 0x1F).supv.good.getLsbD (railGroup 5) = true ∧ (sup .up 5 0x1F).supv.good.getLsbD (railGroup 7) = false ∧ (sup .up 5 0x1F).supv.step = railGroup 7) ∧
    (run.takes host0 .west pgSUPV 0x068 = true ∧ run.takes host0 .west pgSUPV 0x080 = true ∧ run.supv.tripped = false) ∧
    (low1.single = true ∧ low1.supv.seq ≠ .moored ∧ (low1.halves.any fun h => low1.inLf h) = false ∧ (low1.halves.any fun h => low1.live h) = false) ∧
    ((run.halves.any fun h => run.live h) = true ∧ run.inLf .west = false ∧ run.inLf .east = false ∧ (moored.eachPwr (fun p => { p with state := .moored })).supv.seq = .moored ∧ ((moored.eachPwr (fun p => { p with state := .moored })).halves.any fun h => (moored.eachPwr (fun p => { p with state := .moored })).live h) = false) ∧
    (State.reset.otp.west.config.getLsbD 0 = false ∧ (({ State.reset.otp.west with config := 1 } : OtpRow).config.getLsbD 0 = true)) ∧
    (run.roundMay .west = true ∧ (run.reg .west pgHKU 0x040).toNat % 16 = 0 ∧ ((run.setReg .west pgHKU 0x040 5).reg .west pgHKU 0x040).toNat % 16 ≠ 0 ∧ diodeOk (some 85) = true) := by
  decide +kernel

end Sys2Proof.Tests
end

section
/-! PROOFS. The Landing cache (R179 to R192): where a stored line goes and what it leaves, what a taken write of `LAND.CMD` does, and the
cache's own events. -/

namespace Sys2Proof.Machine.Landing

/-! ### What leaves the stores leaves the tiles and the Landing cache of each half -/

/-- Devices with the same stores hold the same in each half. -/
theorem half_stores_eq {d e : Dev} (q : e.stores = d.stores) (h : Half) : (e.half h).stores = (d.half h).stores := by
  cases h
  · exact congrArg Prod.fst q
  · exact congrArg Prod.snd q

theorem half_tier_eq {d e : Dev} (q : e.stores = d.stores) (h : Half) : (e.half h).tier = (d.half h).tier :=
  congrArg (·.1) (half_stores_eq q h)

theorem half_land_eq {d e : Dev} (q : e.stores = d.stores) (h : Half) : (e.half h).land = (d.half h).land :=
  congrArg (·.2.1) (half_stores_eq q h)

/-- A frame's lines are read from the tier alone. -/
theorem frameLine_eq {d e : Dev} (q : e.stores = d.stores) (h : Half) (f j : Nat) : e.frameLine h f j = d.frameLine h f j := by
  simp only [Dev.frameLine, half_tier_eq q h]

@[simp] theorem stores_updSub (d : Dev) (h : Half) (k : Nat) (f : SubCh → SubCh) : (d.updSub h k f).stores = d.stores :=
  stores_upd _ _ _ fun _ => rfl

/-- Waking a subchannel from self-refresh (R166) changes no stored line. -/
@[simp] theorem stores_subWake (d : Dev) (h : Half) (k : Nat) : (d.subWake h k).stores = d.stores := by
  unfold Dev.subWake
  split
  · rw [stores_updSub, stores_wake]
  · rfl

/-! ### Storing a line in a frame -/

/-- A line put in a frame changes the frame store of its half's tier at that line's place and nothing else of the tier. -/
theorem putFrameLine_tier (d : Dev) (h : Half) (f j : Nat) (l : SLine) : ((d.putFrameLine h f j l).half h).tier =
    { (d.half h).tier with dram := smPut (d.half h).tier.dram (f * 1024 + j) (fmtLine f j) l } := by
  simp only [Dev.putFrameLine, upd_half, half_tier_eq (stores_subWake ..)]

@[simp] theorem putFrameLine_land (d : Dev) (h : Half) (f j : Nat) (l : SLine) :
    ((d.putFrameLine h f j l).half h).land = (d.half h).land := by
  simp only [Dev.putFrameLine, upd_half, half_land_eq (stores_subWake ..)]

@[simp] theorem frameLine_putFrameLine (d : Dev) (h : Half) (f j : Nat) (l : SLine) :
    (d.putFrameLine h f j l).frameLine h f j = l := by
  simp only [Dev.frameLine, putFrameLine_tier]
  exact smGetD_smPut ..

theorem frameLine_putFrameLine_ne (d : Dev) (h : Half) {f j g i : Nat} (l : SLine) (n : g * 1024 + i ≠ f * 1024 + j) :
    (d.putFrameLine h f j l).frameLine h g i = d.frameLine h g i := by
  simp only [Dev.frameLine, putFrameLine_tier, smGet_smPut_ne _ _ _ n]

/-! ### Where a stored line goes -/

@[simp] theorem landPut_slots (d : Dev) (h : Half) (key : Nat) (e : LandEntry) :
    ((d.landPut h key e).half h).land.slots = smSet (d.half h).land.slots key e := by
  simp only [Dev.landPut, upd_half]

@[simp] theorem landPut_tier (d : Dev) (h : Half) (key : Nat) (e : LandEntry) :
    ((d.landPut h key e).half h).tier = (d.half h).tier := by
  simp only [Dev.landPut, upd_half]

/-- A cache that is not enabled allocates no slot (R186). -/
theorem landAlloc_not_enabled {d : Dev} {h : Half} (n : (d.half h).land.state ≠ .enabled) (line : Nat) (isRead : Bool) :
    d.landAlloc h line isRead = (none, d) := by
  simp only [Dev.landAlloc, bne_iff_ne, n, ne_eq, not_false_eq_true, if_true]

/-- A write hit of a cache that does not drain stays in the slot, dirty (R182). -/
theorem storeLine_hit {d : Dev} {h : Half} {line key : Nat} {old : LandEntry} (hit : d.landFind h line = some (key, old))
    (n : (d.half h).land.state ≠ .draining) (x : LineData) (t : Tags) :
    d.storeLine h line x t = d.landPut h key { tag := landTag line, dirty := true, line := encodeLine line x t } := by
  simp only [Dev.storeLine, hit, n, if_false]

/-- A write miss of a cache that is not enabled goes past it: the ciphertext to the frame, and one write counted (R186). -/
theorem storeLine_bypass {d : Dev} {h : Half} {line : Nat} (miss : d.landFind h line = none)
    (n : (d.half h).land.state ≠ .enabled) (x : LineData) (t : Tags) :
    d.storeLine h line x t =
      (d.putFrameLine h (d.tile h (lineTile line)).frame.toNat (lineJ line)
        (encodeLine line ((d.lineCrypt h true line t x).getD 0) t)).wrap64 h
          (pgMEMC (frameSub (d.tile h (lineTile line)).frame.toNat / 2)) 0x080 := by
  simp only [Dev.storeLine, miss, landAlloc_not_enabled n]

/-- Settles O23: a hit is `landPut` alone, and a bypass is `putFrameLine` with a counter that leaves the stores. -/
theorem storedLinesStay : Obligations.StoredLinesStay := by
  intro d h line x t e f
  refine ⟨fun key old hit nd => ?_, fun miss ne => ?_⟩
  · have he : e = d.landPut h key { tag := landTag line, dirty := true, line := encodeLine line x t } :=
      storeLine_hit hit nd x t
    simp only [he, landPut_slots, landPut_tier, smGet_smSet, true_and, and_true]
    exact fun k hk => smGet_smSet_ne _ _ hk
  · have hs : e.stores =
        (d.putFrameLine h f (lineJ line) (encodeLine line ((d.lineCrypt h true line t x).getD 0) t)).stores :=
      (congrArg Dev.stores (storeLine_bypass miss ne x t)).trans (stores_wrap64 ..)
    refine ⟨?_, fun g j hj hl hn => ?_, ?_, ?_⟩
    · rw [frameLine_eq hs, frameLine_putFrameLine]
    · rw [frameLine_eq hs, frameLine_putFrameLine_ne _ _ _ (by omega)]
    · rw [half_land_eq hs, putFrameLine_land]
    · rw [half_tier_eq hs, putFrameLine_tier]

/-! ### Writes of `LAND.CMD` (R187) -/

/-- The way in a written value of `LAND.CMD`. -/
theorem landCmd_way {w op : Nat} (hw : w < 16) (ho : op < 16) : bitsOf (w * 65536 + op) 19 16 = w := by
  simp only [bitsOf]
  omega

/-- The opcode in a written value of `LAND.CMD`. -/
theorem landCmd_op {op : Nat} (w : Nat) (ho : op < 16) : (w * 65536 + op) % 16 = op := by omega

/-- A write of `LAND.CMD` is refused while a preload runs. -/
theorem landCmd_busy {d : Dev} {h : Half} (busy : (d.half h).land.preload ≠ none) (v : Nat) : Dev.landCmd h v d = none := by
  simp only [Dev.landCmd, Option.isSome_iff_ne_none.mpr busy, if_true]

theorem landCmd_preload {d : Dev} {h : Half} {w : Nat} (hw : w < 16) (idle : (d.half h).land.preload = none) :
    Dev.landCmd h (w * 65536 + 1) d = some ((d.setReg h pgLAND 0x05C (w * 65536)).preload h w) := by
  simp [Dev.landCmd, idle, landCmd_way hw, landCmd_op]

theorem landCmd_lock {d : Dev} {h : Half} {w : Nat} (hw : w < 16) (idle : (d.half h).land.preload = none) :
    Dev.landCmd h (w * 65536 + 2) d = some ((d.setReg h pgLAND 0x05C (w * 65536)).lockWay h w) := by
  simp [Dev.landCmd, idle, landCmd_way hw, landCmd_op]

theorem landCmd_unlock {d : Dev} {h : Half} {w : Nat} (hw : w < 16) (idle : (d.half h).land.preload = none) :
    Dev.landCmd h (w * 65536 + 3) d = some ((d.setReg h pgLAND 0x05C (w * 65536)).unlockWay h w) := by
  simp [Dev.landCmd, idle, landCmd_way hw, landCmd_op]

/-- A write of `LAND.CMD` that is taken has its act's effect, or that of a refusal where the act has none. -/
theorem landWrite_takes {org : Origin} {h : Half} {w : Nat} {s : State} (hw : w < 16)
    (k : s.dev.takes org h pgLAND 0x05C = true) (op : Nat) :
    landWrite org h w op s = .next { s with dev :=
      ((Dev.landCmd h (w * 65536 + op) (s.dev.entry org h pgLAND 0x05C (w * 65536 + op))).getD
        (s.dev.refusal org h pgLAND 0x05C (w * 65536 + op))).settleT } := by
  have hv : w % 16 * 2 ^ 16 + op = w * 65536 + op := by omega
  simp only [landWrite, onDevT, onDev, hv, command_takes _ _ false id k]
  cases Dev.landCmd h (w * 65536 + op) (s.dev.entry org h pgLAND 0x05C (w * 65536 + op)) <;> rfl

/-- Where its act has an effect, that is the write's. -/
theorem landWrite_act {org : Origin} {h : Half} {w op : Nat} {s : State} {a : Dev} (hw : w < 16)
    (k : s.dev.takes org h pgLAND 0x05C = true)
    (act : Dev.landCmd h (w * 65536 + op) (s.dev.entry org h pgLAND 0x05C (w * 65536 + op)) = some a) :
    landWrite org h w op s = .next { s with dev := a.settleT } := by
  rw [landWrite_takes hw k, act, Option.getD_some]

/-- A `PRELOAD` of no lines ends BAD_ARG (3). -/
theorem preload_of_no_lines {d : Dev} {h : Half} (z : d.fld h pgLAND 0x058 17 0 = 0) (w : Nat) :
    d.preload h w = (d.setReg h pgLAND 0x060 0).landEnd h 3 := by
  simp only [Dev.preload, z, decide_true, Bool.true_or, if_true]

/-- The commands of R187: each act of `LAND.CMD` that is taken, and the refusal while a preload runs. -/
theorem landCommands : Claim.LandCommands := by
  intro org h w s hw k v d e
  refine ⟨fun idle => ?lock, fun idle => ?unlock, fun idle => ?preload, fun z => preload_of_no_lines z w, fun busy => ?refused⟩
  case lock => exact landWrite_act hw k (landCmd_lock hw idle)
  case unlock => exact landWrite_act hw k (landCmd_unlock hw idle)
  case preload => exact landWrite_act hw k (landCmd_preload hw idle)
  case refused =>
    show landWrite org h w 1 s = _
    rw [landWrite_takes hw k, landCmd_busy busy, Option.getD_none]

/-! ### Events of the cache (R185, R187, R188, R190) -/

/-- A flush of slots none of which is dirty does nothing. -/
theorem landFlush_of_clean {d : Dev} {h : Half} {p : Nat → Bool} (c : d.landDirty h p = false) : d.landFlush h p = d := by
  have none_picked : ((d.half h).land.slots.filter fun e => p e.1 && e.2.dirty) = [] := by
    simpa only [Dev.landDirty, List.any_eq_false, List.filter_eq_nil_iff] using c
  rw [Dev.landFlush, none_picked, List.foldl_nil]

/-- An empty cache has no dirty slot. -/
theorem landDirty_of_empty {d : Dev} {h : Half} (z : (d.half h).land.slots = []) (p : Nat → Bool) : d.landDirty h p = false := by
  rw [Dev.landDirty, z, List.any_nil]

/-- An empty buffer has no write to issue. -/
theorem bufIssue_of_empty {d : Dev} {h : Half} (z : (d.half h).land.buf = []) : d.bufIssue h = d := by
  simp only [Dev.bufIssue, z, List.find?_nil]

/-- The drain's issues (R190) do nothing to an empty buffer. -/
theorem bufIssue_foldl_of_empty {β : Type} {d : Dev} {h : Half} (z : (d.half h).land.buf = []) (L : List β) :
    L.foldl (fun d _ => d.bufIssue h) d = d := by
  induction L with
  | nil => rfl
  | cons _ L ih => rw [List.foldl_cons, bufIssue_of_empty z, ih]

/-- A running `PRELOAD` none of whose tiles is RISING loads its lines and ends done (R187). -/
theorem landCmdDone_runs {h : Half} {s : State} {c : Preload} (run : (s.dev.half h).land.preload = some c)
    (still : ((rangeTiles c.first c.len).any fun t => (s.dev.tile h t).state == .rising) = false) :
    let r := ((List.range c.len).map (c.first + ·)).foldl (Dev.preloadLine h c.way) (0, [], s.dev)
    let d := r.2.2.upd h fun x => { x with land := { x.land with preload := none } }
    Runs (.landCmdDone h) s ((d.setReg h pgLAND 0x060 (r.1 % 2 ^ 18)).landEnd h 2).settleT := by
  show execLandCmdDone h s = _
  simp only [execLandCmdDone, onDevT, onDev, run, still, Bool.false_eq_true, if_false]

/-- A way that is being disabled, with no dirty line and no buffered write left, is invalidated (R188 step 3). -/
theorem wayDisabled_runs {h : Half} {way : Nat} {s : State} (mem : way ∈ (s.dev.half h).land.disabling)
    (clean : s.dev.landDirty h (fun k => k % 16 == way) = false) (clear : ((s.dev.half h).land.buf.any fun b => b.way == way) = false) :
    Runs (.wayDisabled h way) s (((s.dev.upd h fun x => { x with land := { x.land with
      slots := x.land.slots.filter fun e => e.1 % 16 != way
      disabling := x.land.disabling.filter fun w => w != way } }).raise h pgLAND .wayDisabled way).settleT) := by
  have listed : (s.dev.half h).land.disabling.contains way = true := List.contains_iff_mem.mpr mem
  show execWayDisabled h way s = _
  simp only [execWayDisabled, onDevT, onDev, listed, landFlush_of_clean clean, clean, clear, Bool.not_true, Bool.or_false,
    Bool.false_eq_true, if_false]

/-- The tally of a way expires (R188). -/
theorem wayTallyExpiry_runs {h : Half} {way : Nat} {s : State} (hw : way < 16) :
    Runs (.wayTallyExpiry h way) s
      ((s.dev.upd h fun x => { x with land := { x.land with tallyStart := smDel x.land.tallyStart way } }).setReg h pgLAND
        (0x080 + 4 * way) 0) := by
  show execWayTallyExpiry h way s = _
  simp only [execWayTallyExpiry, onDev, Nat.not_le.mpr hw, if_false]

/-- A draining cache with no line and no buffered write is DISABLED (R190). -/
theorem drainDone_runs {h : Half} {s : State} (draining : (s.dev.half h).land.state = .draining)
    (noSlot : (s.dev.half h).land.slots = []) (noBuf : (s.dev.half h).land.buf = []) :
    Runs (.drainDone h) s (((s.dev.upd h fun x => { x with land := { x.land with
      state := .disabled, slots := [], locked := 0 } }).raise h pgLAND .drainDone).settleT) := by
  have clean := landDirty_of_empty noSlot fun _ => true
  show execDrainDone h s = _
  simp only [execDrainDone, onDevT, onDev, draining, landFlush_of_clean clean, bufIssue_foldl_of_empty noBuf, clean, noBuf,
    bne_self_eq_false, List.isEmpty_nil, Bool.not_true, Bool.or_false, Bool.false_eq_true, if_false]

/-- The events of R185, R187, R188 and R190; the buffer's oldest write issues by the event's definition. -/
theorem landEvents : Claim.LandEvents := by
  intro h way s
  exact ⟨fun _ => landCmdDone_runs, wayDisabled_runs, wayTallyExpiry_runs, drainDone_runs, rfl⟩

/-- Settles O32: the commands by the act of `LAND.CMD` on the way and opcode written, the events each by its own rule. -/
theorem landingCache : Obligations.LandingCache := ⟨landCommands, landEvents⟩

end Sys2Proof.Machine.Landing
end

section
/-! PROOFS. The flash tier (R223 to R250): how a submitted descriptor is answered, how the operation of a LUN ends, channels, `FORMAT`,
and the diagnostic slot. -/

namespace Sys2Proof.Machine.FlashLog

/-! ### A taken register command (R351) -/

section
variable {d x : Dev} {org : Origin} {h : Half} {page off v : Nat} {act : Dev → Option Dev} {no : Dev → Dev}

theorem command_of_act (k : d.takes org h page off true = true) (a : act (d.entry org h page off v) = some x) :
    d.command org h page off v act false true no = x := by
  rw [command_takes v act false no k, a]

theorem command_of_no_act (k : d.takes org h page off true = true) (a : act (d.entry org h page off v) = none) :
    d.command org h page off v act false true no = no (d.refusal org h page off v) := by
  rw [command_takes v act false no k, a]

end

/-! ### Submissions (R228 to R230, R237) -/

/-- An operation put at the end of an island's queue. -/
def enqueue (d : Dev) (h : Half) (i : Nat) (o : NandOp) : Dev := d.updIsle h i fun x => { x with ops := x.ops ++ [o] }

/-- The opcode of a row's descriptor is the row's. -/
theorem opOfDesc_op {op : Nat} (lt : op < 256) (ring : Nat) (desc : BitVec 512) (img : TileImg) (bytes : List Byte) :
    (opOfDesc ring (descOf op desc) img bytes).op = op := by
  simp only [opOfDesc, descOf]
  omega

section
variable {d : Dev} {h : Half} {i ring n : Nat} {sys : Bool} {img : TileImg} {bytes : List Byte}

/-- The island exists and its ring has room, as `submit` tests it. -/
theorem submit_room (hi : i < 4) (hr : ring ≤ 3) (room : ((d.isle h i).ops.filter (·.ring == ring)).length < ringSize ring) :
    (4 ≤ i || 3 < ring || decide (ringSize ring ≤ ((d.isle h i).ops.filter (·.ring == ring)).length)) = false := by
  simp only [Bool.or_eq_false_iff, decide_eq_false_iff_not, Nat.not_le, Nat.not_lt]
  exact ⟨⟨hi, hr⟩, room⟩

variable {o : NandOp} (desc : opOfDesc ring n img bytes = o) (hi : i < 4) (hr : ring ≤ 3)
  (room : ((d.isle h i).ops.filter (·.ring == ring)).length < ringSize ring)
include desc hi hr room

/-- A malformed descriptor completes BAD_DESC (10). -/
theorem submit_malformed (bad : (enqueue d h i o).descBad h i n o sys = true) :
    d.submit h i ring n sys img bytes = (enqueue d h i o).completeOp h i o 10 NandEnd.none := by
  unfold enqueue at bad
  simp only [Dev.submit, desc, submit_room hi hr room, bad, enqueue, Bool.false_eq_true, if_false, if_true]

variable (good : (enqueue d h i o).descBad h i n o sys = false) (block : (enqueue d h i o).stripeBad h (nandStripe o.addr) = false)
  (lun : nandLun o.addr ∉ ((enqueue d h i o).half h).flash.failedLuns)
  (chan : (d.isle h i).chans.getD (nandChan o.addr % 8) 0 ≠ 3)
include good block lun chan

/-- A well-formed descriptor on a usable LUN: a program is checked against its open stripe, another operation is arbitrated. -/
theorem submit_wellFormed :
    d.submit h i ring n sys img bytes =
      if o.op = 2 ∨ o.op = 5 then
        match (enqueue d h i o).programCheck h o with
        | .inl st => (enqueue d h i o).completeOp h i o st NandEnd.none
        | .inr e => e.serveLun h (nandLun o.addr)
      else (enqueue d h i o).serveLun h (nandLun o.addr) := by
  have up : ((enqueue d h i o).half h).flash.failedLuns.contains (nandLun o.addr) = false := by
    simpa only [List.contains_eq_mem, decide_eq_false_iff_not] using lun
  unfold enqueue at good block up
  simp only [Dev.submit, desc, submit_room hi hr room, good, block, up, beq_eq_false_iff_ne.mpr chan, enqueue, Bool.false_and,
    Bool.or_self, Bool.false_eq_true, if_false] <;> rfl

theorem submit_program_refused {st : Nat} (op : o.op = 2 ∨ o.op = 5) (no : (enqueue d h i o).programCheck h o = .inl st) :
    d.submit h i ring n sys img bytes = (enqueue d h i o).completeOp h i o st NandEnd.none := by
  simp only [submit_wellFormed desc hi hr room good block lun chan, op, no, if_true]

theorem submit_program_taken {e : Dev} (op : o.op = 2 ∨ o.op = 5) (ok : (enqueue d h i o).programCheck h o = .inr e) :
    d.submit h i ring n sys img bytes = e.serveLun h (nandLun o.addr) := by
  simp only [submit_wellFormed desc hi hr room good block lun chan, op, ok, if_true]

theorem submit_arbitrated (op : ¬ (o.op = 2 ∨ o.op = 5)) :
    d.submit h i ring n sys img bytes = (enqueue d h i o).serveLun h (nandLun o.addr) := by
  simp only [submit_wellFormed desc hi hr room good block lun chan, op, if_false]

end

/-- A submission to one of rings 0 to 2 is `submit`. -/
theorem submitOn_eq {ring : Nat} (hr : ring < 3) (h : Half) (i op : Nat) (desc : BitVec 512) (sys : Bool) (img : TileImg)
    (bytes : List Byte) (s : State) : submitOn h i ring op desc sys img bytes s =
      .next { s with dev := (s.dev.submit h i ring (descOf op desc) sys img bytes).settleT } := by
  simp only [submitOn, onDevT, onDev, Nat.not_le.mpr hr, if_false]

/-- The seven rows are submissions that differ in their opcode and in what goes with the descriptor. -/
theorem flashSubmissions : Claim.FlashSubmissions := by
  intro h i ring desc s hi hr room queues
  have of_submission {c : Instr} {op : Nat} {sys : Bool} {img : TileImg} {bytes : List Byte} (lt : op < 256)
      (run : exec c s = submitOn h i ring op desc sys img bytes s) : queues c op sys img bytes := by
    have runs {x : Dev} (eq : s.dev.submit h i ring (descOf op desc) sys img bytes = x) : Runs c s x.settleT := by
      rw [Runs, run, submitOn_eq hr, eq]
    have row := opOfDesc_op lt ring desc img bytes
    have hr := Nat.le_of_lt hr
    refine ⟨fun bad => runs (submit_malformed rfl hi hr room bad), fun good block lun chan => ?_⟩
    split
    case isTrue program =>
      have program := row.symm ▸ program
      exact ⟨fun st no => runs (submit_program_refused rfl hi hr room good block lun chan program no),
        fun d ok => runs (submit_program_taken rfl hi hr room good block lun chan program ok)⟩
    case isFalse other =>
      exact runs (submit_arbitrated rfl hi hr room good block lun chan (row.symm ▸ other))
  exact ⟨of_submission (by decide) rfl, fun _ => of_submission (by decide) rfl, fun _ => of_submission (by decide) rfl,
    of_submission (by decide) rfl, fun _ => of_submission (by decide) rfl, of_submission (by decide) rfl,
    of_submission (by decide) rfl⟩

/-! ### The operation that a LUN runs (R231, R232, R234, R235, R243, R248) -/

section
variable {d : Dev} {h : Half} {lun : Nat} {o : NandOp} {r : NandEnd}

/-- A program that passed stores its tile. -/
theorem opEnd_program_done (op : o.op = 2) (ok : r.fail = false) : d.opEnd h lun o r =
    (((d.wrap64 h (pgFLSH (lunIsle lun)) 0x0E8).putNand h o.addr o.img).moveEnd h o).completeOp h (lunIsle lun) o 0
      { r with iter := 0, bits := 0, level := 0 } := by
  simp [Dev.opEnd, op, ok]

/-- A program that failed closes its stripe (R243). -/
theorem opEnd_program_failed (op : o.op = 2) (bad : r.fail = true) : d.opEnd h lun o r =
    ((d.wrap64 h (pgFLSH (lunIsle lun)) 0x0E8).programFail h o.addr (r.plane % 4)).completeOp h (lunIsle lun) o 6
      { r with iter := 0, bits := 0, level := 0 } := by
  simp [Dev.opEnd, op, bad]

/-- An erase that passed makes its stripe erased. -/
theorem opEnd_erase_done (op : o.op = 3) (whole : o.oneBlock = false) (ok : r.fail = false) : d.opEnd h lun o r =
    ((d.wrap64 h (pgFLSH (lunIsle lun)) 0x0F0).erased h (nandStripe o.addr) o.slc).completeOp h (lunIsle lun) o 0
      { r with iter := 0, bits := 0, level := 0 } := by
  simp [Dev.opEnd, op, whole, ok]

/-- An erase that failed marks the block bad. -/
theorem opEnd_erase_failed (op : o.op = 3) (whole : o.oneBlock = false) (bad : r.fail = true) : d.opEnd h lun o r =
    ((d.wrap64 h (pgFLSH (lunIsle lun)) 0x0F0).markBad h (nandStripe o.addr) (r.plane % 4)).completeOp h (lunIsle lun) o 7
      { r with iter := 0, bits := 0, level := 0 } := by
  simp [Dev.opEnd, op, whole, bad]

/-- `SET_FEATURE` keeps the feature's value. -/
theorem opEnd_feature (op : o.op = 6) : d.opEnd h lun o r =
    (d.updFlash h fun x => { x with features := smPut x.features (lun * 256 + o.feat) 0 o.fval }).completeOp h (lunIsle lun) o 0
      { r with iter := 0, bits := 0, level := 0 } := by
  simp [Dev.opEnd, op]

end

section
variable {h : Half} {lun : Nat} {o : NandOp} {s : State}

section
variable (run : s.dev.runningOp h lun = some o)
include run

/-- The end of the running operation, and then the LUN's next. -/
theorem nandOperationDone_runs {r : NandEnd} {x : Dev} (e : s.dev.opEnd h lun o r = x) :
    Runs (.nandOperationDone h lun r) s (x.serveLun h lun).settleT := by
  show execNandOperationDone h lun r s = _
  simp only [execNandOperationDone, onDevT, onDev, run, e]

/-- A running program or erase is suspended for the reads queued on its LUN (R234). -/
theorem nandSuspendDone_runs (notRead : o.isRead = false)
    (reads : ((s.dev.isle h (lunIsle lun)).ops.any fun q => nandLun q.addr == lun && q.isRead && !q.issued) = true) :
    Runs (.nandSuspendDone h lun) s
      ((((s.dev.updOps h (lunIsle lun) (· == o) fun o => { o with suspended := true, suspends := min (o.suspends + 1) 0xFFFF }).wrap64
        h (pgFLSH (lunIsle lun)) 0x0F8).serveLun h lun).settleT) := by
  show execNandSuspendDone h lun s = _
  simp only [execNandSuspendDone, onDevT, onDev, run, notRead, reads, Bool.not_true, Bool.or_self, Bool.false_eq_true, if_false]

end

/-- The device after the running operation ended `TIMEOUT`, before its LUN is judged (R232, R248). -/
def timedOut (d : Dev) (h : Half) (lun : Nat) (o : NandOp) : Dev :=
  let e := ((d.completeOp h (lunIsle lun) o 8 NandEnd.none).sat h (pgFLSH (lunIsle lun)) 0x104).raise h (pgFLSH (lunIsle lun)) .flashTimeout
  e.updFlash h fun x => { x with
    timeouts := (lun, e.uptime) :: x.timeouts.filter fun t => decide (e.uptime < t.2 + 1000000000) }

/-- The time-outs that a half keeps of a LUN: those within the last second. -/
def recentTimeouts (d : Dev) (h : Half) (lun : Nat) : Nat := ((d.half h).flash.timeouts.filter fun t => t.1 == lun).length

/-- A time-out of an operation other than an erase fails its LUN where it is the third within a second (R248). -/
theorem flashTimeout_runs (run : s.dev.runningOp h lun = some o) (notErase : o.op ≠ 3) :
    Runs (.flashTimeout h lun) s (if 3 ≤ recentTimeouts (timedOut s.dev h lun o) h lun
      then (timedOut s.dev h lun o).lunFail h lun true else (timedOut s.dev h lun o).serveLun h lun).settleT := by
  show execFlashTimeout h lun s = _
  simp only [execFlashTimeout, onDevT, onDev, run, notErase, false_and, if_false] <;> rfl

theorem flashTimeout_serves (run : s.dev.runningOp h lun = some o) (notErase : o.op ≠ 3)
    (few : recentTimeouts (timedOut s.dev h lun o) h lun < 3) :
    Runs (.flashTimeout h lun) s ((timedOut s.dev h lun o).serveLun h lun).settleT := by
  simpa only [if_neg (Nat.not_le.mpr few)] using flashTimeout_runs run notErase

theorem flashTimeout_failsLun (run : s.dev.runningOp h lun = some o) (notErase : o.op ≠ 3)
    (third : 3 ≤ recentTimeouts (timedOut s.dev h lun o) h lun) :
    Runs (.flashTimeout h lun) s ((timedOut s.dev h lun o).lunFail h lun true).settleT := by
  simpa only [if_pos third] using flashTimeout_runs run notErase

/-- An erase that runs too long is reported (R235). -/
theorem eraseOverdue_runs
    (q : ((s.dev.isle h (lunIsle lun)).ops.find? fun o => nandLun o.addr == lun && o.issued && o.op == 3 && !o.overdue) = some o) :
    Runs (.eraseOverdue h lun) s ((s.dev.updOps h (lunIsle lun) (· == o) fun o => { o with overdue := true }).raise h
      (pgFLSH (lunIsle lun)) .eraseOverdue o.addr o.suspends) := by
  show execEraseOverdue h lun s = _
  simp only [execEraseOverdue, onDev, q]

end

/-- Each operation's end, and what else can happen to a LUN that runs one. -/
theorem flashOperations : Claim.FlashOperations := by
  intro h lun o s run d i pg ends
  refine ⟨fun r op ok => ?programDone, fun r op bad => ?programFailed, fun r op whole ok => ?eraseDone,
    fun r op whole bad => ?eraseFailed, fun r op => ?feature, nandSuspendDone_runs run, fun op => ?timeout,
    fun q => eraseOverdue_runs⟩
  case programDone => exact nandOperationDone_runs run (opEnd_program_done op ok)
  case programFailed => exact nandOperationDone_runs run (opEnd_program_failed op bad)
  case eraseDone => exact nandOperationDone_runs run (opEnd_erase_done op whole ok)
  case eraseFailed => exact nandOperationDone_runs run (opEnd_erase_failed op whole bad)
  case feature => exact nandOperationDone_runs run (opEnd_feature op)
  case timeout => exact ⟨flashTimeout_serves run op, flashTimeout_failsLun run op⟩

/-! ### Channels (R223, R224) -/

section
variable {h : Half} {c : Nat} {s : State}

theorem flashChannelRetrain_runs (up : s.dev.chanState h c = 2) :
    Runs (.flashChannelRetrain h c) s (s.dev.setChan h c 1) := by
  show execFlashChannelRetrain h c s = _
  simp only [execFlashChannelRetrain, onDev, up, if_true]

/-- Training that succeeds brings the channel UP, and its LUNs are served. -/
theorem flashChannelTrainDone_up (training : s.dev.chanState h c = 1) (cause : Nat) :
    Runs (.flashChannelTrainDone h c true cause) s
      (((s.dev.lunsOf h c).foldl (fun d l => d.serveLun h l) (s.dev.setChan h c 2)).settleT) := by
  show execFlashChannelTrainDone h c true cause s = _
  simp only [execFlashChannelTrainDone, onDevT, onDev, training, bne_self_eq_false, Bool.false_eq_true, if_false, if_true]

/-- Training that fails leaves the channel FAILED with its LUNs, and reports the cause. -/
theorem flashChannelTrainDone_failed (training : s.dev.chanState h c = 1) {cause : Nat} (lt : cause < 2) :
    let e := (s.dev.setChan h c 3).raise h (pgFLSH (c / 8)) .channelFailed c cause
    Runs (.flashChannelTrainDone h c false cause) s (((e.lunsOf h c).foldl (fun d l => d.lunFail h l false) e).settleT) := by
  show execFlashChannelTrainDone h c false cause s = _
  simp only [execFlashChannelTrainDone, onDevT, onDev, training, Nat.mod_eq_of_lt lt, bne_self_eq_false, Bool.false_eq_true,
    if_false]

end

theorem flashChannels : Claim.FlashChannels := fun _ _ _ =>
  ⟨flashChannelRetrain_runs, fun training =>
    ⟨flashChannelTrainDone_up training, fun _ => flashChannelTrainDone_failed training⟩⟩

/-! ### `FORMAT` (R242, R245, R247) -/

/-- `FORMAT` starts on an unformatted half that runs none: its tiles are wiped and `FLSH.CMD_STATUS` shows it running. -/
theorem flshCmd_starts {d : Dev} {h : Half} (idle : (d.half h).flash.formatting = false) (blank : (d.half h).flash.formatted = false) :
    Dev.flshCmd h 1 d = some (((((d.wipeHalf h).updFlash h fun x => { x with formatting := true }).setReg h (pgFLSH 0) 0x07C
      (2 ^ 28)).lfNote h).dirtyNote h) := by
  simp only [Dev.flshCmd, idle, blank, bne_self_eq_false, Bool.false_and, Bool.or_self, Bool.false_eq_true, if_false]

/-- A second `FORMAT` is refused while one runs. -/
theorem flshCmd_refused {d : Dev} {h : Half} (busy : (d.half h).flash.formatting = true) (v : Nat) : Dev.flshCmd h v d = none := by
  simp only [Dev.flshCmd, busy, Bool.or_true, Bool.true_or, if_true]

/-- What `FORMAT`'s end records in the half's flash state: that it is formatted and no longer formatting, its pages a block and its LUNs. -/
def geometry (d : Dev) (h : Half) : Bool × Bool × Nat × List Nat :=
  ((d.half h).flash.formatted, (d.half h).flash.formatting, (d.half h).flash.pages, (d.half h).flash.luns)

/-- A change of a half's flash state keeps the geometry that it does not write. -/
theorem geometry_updFlash {d : Dev} {h : Half} {f : FlashHalf → FlashHalf}
    (q : ∀ x, ((f x).formatted, (f x).formatting, (f x).pages, (f x).luns) = (x.formatted, x.formatting, x.pages, x.luns)) :
    geometry (d.updFlash h f) h = geometry d h := by
  simp only [geometry, Dev.updFlash, upd_half, q]

theorem geometry_setStripe (d : Dev) (h : Half) (k : Nat) (x : Stripe) : geometry (d.setStripe h k x) h = geometry d h :=
  geometry_updFlash fun _ => rfl

theorem geometry_foldl {β : Type} {h : Half} {f : Dev → β → Dev} (q : ∀ d x, geometry (f d x) h = geometry d h) (L : List β)
    (d : Dev) : geometry (L.foldl f d) h = geometry d h := by
  induction L generalizing d with
  | nil => rfl
  | cons x L ih => rw [List.foldl_cons, ih, q]

/-- Setting the stripes of a list keeps the geometry. -/
theorem geometry_setStripes (h : Half) (x : Stripe) (L : List Nat) (d : Dev) :
    geometry (L.foldl (fun d k => d.setStripe h k x) d) h = geometry d h :=
  geometry_foldl (fun d k => geometry_setStripe d h k x) L d

/-- Renewing the reservation (R408) leaves the stores. -/
theorem stores_reserve (d : Dev) (h : Half) : (d.reserve h).stores = d.stores := by
  simp only [Dev.reserve]
  split
  · exact stores_upd _ _ _ fun _ => rfl
  · rfl

/-- What shows the end of `FORMAT` leaves the stores. -/
theorem stores_formatShown (d : Dev) (h : Half) :
    (((d.reserve h).setReg h (pgFLSH 0) 0x07C (2 * 2 ^ 28 + 100)).raise h (pgFLSH 0) .formatDone).stores = d.stores := by
  rw [stores_raise, stores_setReg, stores_reserve]

/-- What `FORMAT`'s end leaves in a half: formatted, idle, its geometry and the tiles that it makes. -/
def FormatRecorded (d : Dev) (h : Half) (pages stripes : Nat) : Prop :=
  (d.half h).flash.formatted = true ∧ (d.half h).flash.formatting = false ∧ (d.half h).flash.pages = pages ∧
    (d.half h).tier.rawTiles = (d.half h).flash.luns.length * (min stripes 4095) * pages

theorem formatRecorded_of_stores {d e : Dev} {h : Half} {pages stripes : Nat} (q : e.stores = d.stores)
    (r : FormatRecorded d h pages stripes) : FormatRecorded e h pages stripes := by
  have flash : (e.half h).flash = (d.half h).flash := congrArg (·.2.2.1) (Landing.half_stores_eq q h)
  rwa [FormatRecorded, flash, Landing.half_tier_eq q h]

/-- With the geometry recorded, the count of the tiles that it makes completes the record. -/
theorem formatRecorded_upd {d : Dev} {h : Half} {pages stripes : Nat} {luns : List Nat} {f : HalfState → HalfState}
    (g : geometry d h = (true, false, pages, luns)) (flash : ∀ x, (f x).flash = x.flash)
    (raw : ∀ x, (f x).tier.rawTiles = luns.length * (min stripes 4095) * pages) : FormatRecorded (d.upd h f) h pages stripes := by
  simp only [geometry, Prod.mk.injEq] at g
  obtain ⟨formatted, idle, pages, luns⟩ := g
  simp only [FormatRecorded, upd_half, flash, raw, formatted, idle, pages, luns, and_self]

/-- The end of a running `FORMAT`: the geometry first, which the stripes and blocks marked after it leave, then the tile counts. -/
theorem formatDone_runs {h : Half} {s : State} (pages stripes bits : Nat) (luns bad : List Nat)
    (busy : (s.dev.half h).flash.formatting = true) :
    ∃ e : Dev, Runs (.formatDone h pages stripes bits luns bad) s (e.lfNote h).settleT ∧ FormatRecorded e h pages stripes := by
  apply Exists.intro
  constructor
  case left =>
    show execFormatDone h pages stripes bits luns bad s = _
    simp only [execFormatDone, onDevT, onDev, busy, Bool.not_true, Bool.false_eq_true, if_false]
    rfl
  case right =>
    refine formatRecorded_of_stores (stores_formatShown ..) (formatRecorded_upd ?_ (fun _ => rfl) fun _ => rfl)
    rw [geometry_foldl, geometry_setStripes, geometry, Dev.updFlash, upd_half]
    intro d lun
    rw [geometry_updFlash, geometry_setStripes, geometry_setStripes]
    exact fun _ => rfl

theorem formatting : Claim.Formatting := by
  intro h s
  refine ⟨fun org k => ⟨fun idle blank => ?starts, fun busy => ?refused⟩, formatDone_runs⟩
  case starts =>
    show execFormat org h s = _
    rw [execFormat, onDevT, onDev, command_of_act k (flshCmd_starts idle blank)]
  case refused =>
    show execFormat org h s = _
    rw [execFormat, onDevT, onDev, command_of_no_act k (flshCmd_refused busy 1)]

/-! ### The diagnostic slot (R250) -/

/-- The descriptor that `DIAG_DESC` holds. -/
def diagDescriptor (d : Dev) (h : Half) (i : Nat) : Nat :=
  (List.range 16).foldl (fun n j => n + (d.reg h (pgFLSH i) (0x080 + 4 * j)).toNat * 2 ^ (32 * j)) 0

/-- GO with `READ_PAGE_RAW` or `GET_PARAM` makes an idle slot busy and submits the descriptor. -/
theorem diagGo_submits {e : Dev} {h : Half} {i : Nat} (idle : (e.isle h i).diagBusy = false)
    (op : diagDescriptor e h i % 256 = 4 ∨ diagDescriptor e h i % 256 = 7) (test : Bool) :
    let n := diagDescriptor e h i
    let d := (e.updIsle h i fun x => { x with diagBusy := true }).setFld h (pgFLSH i) 0x0C0 5 4 1
    Dev.diagGo test h i e = some (d.submit h i 3 n false {}
      ((smGetD (d.isle h i).rawPages (bitsOf n 79 72) [] ++ List.replicate 18256 0).take 18256)) := by
  unfold diagDescriptor at op ⊢
  rcases op with op | op <;> 
    simp only [Dev.diagGo, idle, op, Nat.reduceEqDiff, decide_false, Bool.or_self, Bool.false_and, Bool.false_eq_true, if_false]

theorem diagGo_busy {e : Dev} {h : Half} {i : Nat} (busy : (e.isle h i).diagBusy = true) (test : Bool) :
    Dev.diagGo test h i e = none := by
  simp only [Dev.diagGo, busy, Bool.true_or, if_true]

theorem diagnosticSlot : Claim.DiagnosticSlot := by
  intro org h i s hi k v e n
  refine ⟨fun idle op => ?submits, fun busy => ?refused⟩
  case submits =>
    show execDiagGo org h i s = _
    rw [execDiagGo, onDevT, onDev, if_neg (Nat.not_le.mpr hi), command_of_act k (diagGo_submits idle op _)]
    rfl
  case refused =>
    show execDiagGo org h i s = _
    rw [execDiagGo, onDevT, onDev, if_neg (Nat.not_le.mpr hi), command_of_no_act k (diagGo_busy busy _)]

/-- Settles O37: descriptors by how `submit` answers them, the events of LUNs and channels each by its own rule, `FORMAT` and GO by the
acts of their registers. -/
theorem flashTier : Obligations.FlashTier := ⟨flashSubmissions, flashOperations, flashChannels, formatting, diagnosticSlot⟩

/-! ### A tagged message -/

/-- A device with keys of zeros takes an acknowledgement whose TAG passes: the hypothesis of `Claim.FerryMessagesWithTag` can be met.
No obligation here needs it. It stands here for the check: the audit replays declarations in an order that their names give, and
under this name the evaluation that it cites, the costliest of the text in memory, comes early, while the replay is small. -/
theorem tagAccepted_ofSession : ∃ m, ((Tests.recv m).feryRecv .west 0x03 fun _ => true).1 = some m := by
  obtain ⟨⟨passes, _⟩, _⟩ := Tests.witness_FerryMessagesWithTag
  exact ⟨_, passes⟩

end Sys2Proof.Machine.FlashLog
end

section
/-! PROOFS. Key slots (R253 to R280): what a taken write of `KEYS.CMD` does, a deferred load, the end of an erase, and the walks of an erase
and of a sweep. -/

namespace Sys2Proof.Machine.KeyStore

/-! ### A key slot and the wrapped records of a half (R253, R260) -/

section
variable {d e : Dev} {h k : Half} {n : Nat} {f : KeySlot → KeySlot}

@[simp] theorem kslot_updSlot : (d.updSlot h n f).kslot h n = f (d.kslot h n) := by
  simp only [Dev.kslot, Dev.updSlot, upd_half, smGetD_smPut]

theorem kslot_updSlot_ne (ne : k ≠ h) : (d.updSlot h n f).kslot k n = d.kslot k n := by
  simp only [Dev.kslot, Dev.updSlot, upd_half_ne d _ ne]

@[simp] theorem records_updSlot : ((d.updSlot h n f).half k).ciph.records = (d.half k).ciph.records := by
  rcases half_cases h k with rfl | rfl
  · simp only [Dev.updSlot, upd_half]
  · simp only [Dev.updSlot, upd_half_other]

/-- What leaves the stores leaves the cipher engine of each half. -/
theorem half_ciph_eq (q : e.stores = d.stores) (h : Half) : (e.half h).ciph = (d.half h).ciph :=
  congrArg (·.2.2.2) (Landing.half_stores_eq q h)

theorem kslot_eq (q : e.stores = d.stores) (h : Half) (n : Nat) : e.kslot h n = d.kslot h n := by
  simp only [Dev.kslot, half_ciph_eq q]

end

/-! ### A `KEY_EVENT` leaves the stores (R199, R260) -/

@[simp] theorem stores_rekeyDone (d : Dev) (h : Half) : (d.rekeyDone h).stores = d.stores := by
  simp only [Dev.rekeyDone]
  split
  · split
    · split
      · rw [stores_setReg, stores_raise]
        exact stores_upd _ _ _ fun _ => rfl
      · rw [stores_raise]
        exact stores_upd _ _ _ fun _ => rfl
    · rfl
  · rfl

@[simp] theorem stores_feryStream (d : Dev) (h : Half) (m : StreamMsg) : (d.feryStream h m).stores = d.stores := by
  rw [Dev.feryStream, stores_rekeyDone]
  refine stores_upd _ _ _ fun x => ?_
  split <;> rfl

@[simp] theorem stores_keyEventHalf (d : Dev) (h : Half) (op n : Nat) (ph : Bool) : (d.keyEventHalf h op n ph).stores = d.stores := by
  unfold Dev.keyEventHalf
  split
  · rfl
  · exact stores_feryStream ..

/-! ### The record overwrite and the end of an erase (R274, R276) -/

/-- A slot as its erase leaves it: RETIRED, or EMPTY in its next generation with its walk to come. -/
def erasedSlot (gone : Bool) (k : KeySlot) : KeySlot :=
  if gone then { k.zero with state := .retired, owner := none }
  else { k.zero with state := .empty, walking := true, owner := none, gen := k.gen + 1 }

theorem erasedSlot_keys (gone : Bool) (k : KeySlot) :
    (erasedSlot gone k).k1a = 0 ∧ (erasedSlot gone k).k2a = 0 ∧ (erasedSlot gone k).k1b = 0 ∧ (erasedSlot gone k).k2b = 0 ∧
      (erasedSlot gone k).cmac = 0 ∧ (erasedSlot gone k).owner = none := by
  cases gone <;> exact ⟨rfl, rfl, rfl, rfl, rfl, rfl⟩

/-- Change a slot in some halves. -/
def updSlots (d : Dev) (n : Nat) (hs : List Half) (f : KeySlot → KeySlot) : Dev := hs.foldl (fun d h => d.updSlot h n f) d

theorem kslot_updSlots_both (d : Dev) (h : Half) (n : Nat) (f : KeySlot → KeySlot) :
    (updSlots d n [.west, .east] f).kslot h n = f (d.kslot h n) := by
  simp only [updSlots, List.foldl_cons, List.foldl_nil]
  cases h
  · rw [kslot_updSlot_ne (by decide), kslot_updSlot]
  · rw [kslot_updSlot, kslot_updSlot_ne (by decide)]

@[simp] theorem records_updSlots (d : Dev) (h : Half) (n : Nat) (hs : List Half) (f : KeySlot → KeySlot) :
    ((updSlots d n hs f).half h).ciph.records = (d.half h).ciph.records := by
  induction hs generalizing d with
  | nil => rfl
  | cons k hs ih => exact (ih _).trans records_updSlot

/-- The end of an erase turns the slot into its erased form; the messages and events that follow change no store. -/
theorem stores_eraseFinish (d : Dev) (n : Nat) (hs : List Half) (retire : Bool) :
    (d.eraseFinish n hs retire).stores =
      (updSlots d n hs (erasedSlot (retire || (d.kslot (hs.headD .west) n).gen == 0xFFFFFFFF))).stores := by
  simp only [Dev.eraseFinish]
  rw [stores_foldl _ (fun _ _ => stores_raise ..), stores_foldl _ (fun _ _ => stores_keyEventHalf ..)]
  rfl

theorem kslot_eraseRecord (d : Dev) (h : Half) (n : Nat) (hs : List Half) : (d.eraseRecord n hs).kslot h n = d.kslot h n := by
  unfold Dev.eraseRecord
  induction hs generalizing d with
  | nil => rfl
  | cons k hs ih =>
    rw [List.foldl_cons, ih]
    rcases half_cases k h with rfl | rfl
    · simp only [Dev.kslot, upd_half]
    · simp only [Dev.kslot, upd_half_other]

/-- The overwrite leaves no record of the slot in a half that it covers. -/
theorem records_eraseRecord_both (d : Dev) (h : Half) (n : Nat) :
    ((d.eraseRecord n [.west, .east]).half h).ciph.records = smDel (smDel (d.half h).ciph.records (n * 2)) (n * 2 + 1) := by
  cases h <;> rfl

/-- The record overwrite of a slot that is ERASING in both halves covers both, and retires none where no command runs. -/
theorem keyEraseRecordDone_runs {slot : Nat} {s : State} (two : s.dev.single = false)
    (erasing : ∀ h, (s.dev.kslot h (slot % 1024)).state = .erasing) (quiet : ∀ h, (s.dev.half h).ciph.queue = [])
    (noCmd : s.dev.keys.cmd = none) :
    Runs (.keyEraseRecordDone slot) s
      ((s.dev.eraseRecord (slot % 1024) [.west, .east]).eraseFinish (slot % 1024) [.west, .east] false) := by
  have covered : (s.dev.halves.filter fun h => (s.dev.kslot h (slot % 1024)).state == .erasing) = [.west, .east] := by
    simp [Dev.halves, two, erasing]
  show execKeyEraseRecordDone slot s = _
  simp [execKeyEraseRecordDone, onDev, covered, quiet, noCmd]

/-- The overwrite erases the slot in each half, and West's generation decides whether it is retired (R276). -/
theorem keyEraseRecordDone_zeroises {slot : Nat} {s : State} (two : s.dev.single = false)
    (erasing : ∀ h, (s.dev.kslot h (slot % 1024)).state = .erasing) (quiet : ∀ h, (s.dev.half h).ciph.queue = [])
    (noCmd : s.dev.keys.cmd = none) :
    ∃ d : Dev, Runs (.keyEraseRecordDone slot) s d ∧ ∀ h,
      d.kslot h (slot % 1024) = erasedSlot ((s.dev.kslot .west (slot % 1024)).gen == 0xFFFFFFFF) (s.dev.kslot h (slot % 1024)) ∧
      (d.half h).ciph.records = smDel (smDel (s.dev.half h).ciph.records (slot % 1024 * 2)) (slot % 1024 * 2 + 1) := by
  refine ⟨_, keyEraseRecordDone_runs two erasing quiet noCmd, fun h => ⟨?slot, ?records⟩⟩
  case slot =>
    rw [kslot_eq (stores_eraseFinish ..), kslot_updSlots_both, kslot_eraseRecord, List.headD_cons, kslot_eraseRecord, Bool.false_or]
  case records => rw [half_ciph_eq (stores_eraseFinish ..), records_updSlots, records_eraseRecord_both]

/-! ### Deferred loads (R273) -/

/-- With no request queued in either half none is left that came before the load. -/
theorem loadDeferredApply_runs {s : State} {c : KeyCmd} (cmd : s.dev.keys.cmd = some c) (deferred : c.deferred = true)
    (quiet : ∀ h, (s.dev.half h).ciph.queue = []) :
    Runs .loadDeferredApply s (s.dev.updKeyCmd fun c => { c with deferred := false }).keysExchange := by
  show execLoadDeferredApply s = _
  simp [execLoadDeferredApply, onDev, cmd, deferred, quiet]

theorem keyLoadsAndErasures : Claim.KeyLoadsAndErasures := by
  refine ⟨fun s c => loadDeferredApply_runs, ?_⟩
  intro slot s n two erasing quiet noCmd
  obtain ⟨d, runs, after⟩ := keyEraseRecordDone_zeroises two erasing quiet noCmd
  refine ⟨d, runs, fun h => ?_⟩
  obtain ⟨slotEq, records⟩ := after h
  obtain ⟨k1a, k2a, k1b, k2b, mac, owner⟩ :=
    erasedSlot_keys ((s.dev.kslot .west n).gen == 0xFFFFFFFF) (s.dev.kslot h n)
  rw [slotEq, records]
  refine ⟨k1a, k2a, k1b, k2b, mac, owner, ?phaseA, ?phaseB, fun more => ?emptied, fun last => ?retired⟩
  case phaseA => rw [smGet_smDel_ne _ (by omega), smGet_smDel]
  case phaseB => exact smGet_smDel ..
  case emptied =>
    rw [beq_eq_false_iff_ne.mpr more]
    exact ⟨rfl, rfl, rfl⟩
  case retired =>
    rw [beq_iff_eq.mpr last]
    rfl

/-! ### Writes of `KEYS.CMD` (R257 to R259, R271, R274, R276, R280) -/

/-- The word that writes a key command. -/
def cmdWord (op slot : Nat) (ph : Bool) : Nat := op + slot % 1024 * 16 + bnum ph * 2 ^ 14

section
variable {op slot : Nat} {ph : Bool}

theorem cmdWord_op (lt : op < 16) : cmdWord op slot ph % 16 = op := by
  simp only [cmdWord]
  omega

theorem cmdWord_slot (lt : op < 16) : bitsOf (cmdWord op slot ph) 13 4 = slot % 1024 := by
  simp only [cmdWord, bitsOf]
  omega

theorem cmdWord_phase (lt : op < 16) : (cmdWord op slot ph).testBit 14 = ph := by
  have low : op + slot % 1024 * 16 < 2 ^ 14 := by omega
  rw [cmdWord, Nat.add_comm, Nat.mul_comm, Nat.testBit_two_pow_mul_add _ low]
  cases ph <;> rfl

end

section
variable {d : Dev} {org : Origin} {h : Half} {slot : Nat} {ph : Bool}

/-- A write that R257 to R280 refuse has no effect. -/
theorem keysCmd_refused {v : Nat} (no : d.keysJudge org h v ≠ 0) : Dev.keysCmd org h v d = none := by
  simp only [Dev.keysCmd, bne_iff_ne.mpr no, if_true]

theorem keysCmd_establish {key : BitVec 256} (may : d.keysJudge org h (cmdWord 1 0 false) = 0)
    (point : d.transportOf org h = some key) :
    Dev.keysCmd org h (cmdWord 1 0 false) d = some (({ d with keys := { d.keys with
      status := 2
      transports := { org := org, key := key } :: d.keys.transports.filter fun t => !(t.org == org) } } : Dev).raise h pgKEYS
        .keysCmdDone 0) := by
  simp [Dev.keysCmd, may, cmdWord_op, cmdWord_slot, point]

theorem keysCmd_load {ks : List (BitVec 256)} (may : d.keysJudge org h (cmdWord 2 slot ph) = 0)
    (unwraps : d.unwrapBlob org h (slot % 1024) ph = some ks) :
    Dev.keysCmd org h (cmdWord 2 slot ph) d =
      some (d.keysBegin { org := org, half := h, op := 2, slot := slot % 1024, phase := ph, keys := ks }) := by
  simp [Dev.keysCmd, may, cmdWord_op, cmdWord_slot, cmdWord_phase, unwraps]

theorem keysCmd_generate (may : d.keysJudge org h (cmdWord 3 slot ph) = 0) :
    let a := d.freshKey
    let b := a.2.freshKey
    let m := b.2.freshKey
    Dev.keysCmd org h (cmdWord 3 slot ph) d = some (
      if a.1 = b.1 then ({ m.2 with keys := { m.2.keys with status := 11 } } : Dev).raise h pgKEYS .keysCmdDone (slot % 1024)
      else m.2.keysBegin { org := org, half := h, op := 3, slot := slot % 1024, phase := ph, keys := [a.1, b.1, m.1] }) := by
  simp only [Dev.keysCmd, may, cmdWord_op, cmdWord_slot, cmdWord_phase, Nat.reduceLT, bne_self_eq_false, Bool.false_eq_true, if_false]
  split <;> rfl

theorem keysCmd_sweep (may : d.keysJudge org h (cmdWord 4 slot ph) = 0) :
    Dev.keysCmd org h (cmdWord 4 slot ph) d =
      some (d.keysBegin { org := org, half := h, op := 4, slot := slot % 1024, phase := ph }) := by
  simp [Dev.keysCmd, may, cmdWord_op, cmdWord_slot, cmdWord_phase]

/-- ERASE and RETIRE cut a load of the slot short and begin. -/
theorem keysCmd_erase {op : Nat} (erases : op = 5 ∨ op = 6) (may : d.keysJudge org h (cmdWord op slot ph) = 0) :
    Dev.keysCmd org h (cmdWord op slot ph) d =
      some (d.keysCut.keysBegin { org := org, half := h, op := op, slot := slot % 1024, phase := ph }) := by
  rcases erases with rfl | rfl <;> simp [Dev.keysCmd, may, cmdWord_op, cmdWord_slot, cmdWord_phase]

/-- SELECT is refused only while another command runs. -/
theorem keysCmd_select (idle : d.keys.cmd = none) :
    Dev.keysCmd org h (cmdWord 7 slot ph) d =
      some (({ d with keys := { d.keys with selected := slot % 1024, status := 2 } } : Dev).raise h pgKEYS .keysCmdDone
        (slot % 1024)) := by
  have may : d.keysJudge org h (cmdWord 7 slot ph) = 0 := by
    simp [Dev.keysJudge, cmdWord_op, idle]
  simp [Dev.keysCmd, may, cmdWord_op, cmdWord_slot]

end

section
variable {c : Instr} {org : Origin} {h : Half} {op slot : Nat} {ph : Bool} {s : State} {x : Dev}
  (row : exec c s = keysWrite org h op slot ph s) (journaled : (op != 7) = true)
  (taken : s.dev.takes org h pgKEYS 0x040 = true)
include row journaled taken

/-- A write that is taken has the effect of its command. -/
theorem keysWrite_acts (act : Dev.keysCmd org h (cmdWord op slot ph) (s.dev.entry org h pgKEYS 0x040 (cmdWord op slot ph)) = some x) :
    Runs c s x := by
  unfold cmdWord at act
  simp only [Runs, row, keysWrite, onDev, journaled, FlashLog.command_of_act taken act]

/-- A write that is taken and refused is journaled REFUSED and shows why. -/
theorem keysWrite_refused (no : (s.dev.entry org h pgKEYS 0x040 (cmdWord op slot ph)).keysJudge org h (cmdWord op slot ph) ≠ 0) :
    Runs c s (Dev.keysNo org h (cmdWord op slot ph) (s.dev.refusal org h pgKEYS 0x040 (cmdWord op slot ph))) := by
  have noAct := keysCmd_refused no
  unfold cmdWord at noAct ⊢
  simp only [Runs, row, keysWrite, onDev, journaled, FlashLog.command_of_no_act taken noAct]

end

/-- SELECT, which is not journaled. -/
theorem keySelect_runs {org : Origin} {h : Half} {slot : Nat} {s : State} {x : Dev}
    (taken : s.dev.takes org h pgKEYS 0x040 false = true)
    (act : Dev.keysCmd org h (cmdWord 7 slot false) (s.dev.wake h (pageIsland pgKEYS)) = some x) : Runs (.keySelect org h slot) s x := by
  unfold cmdWord at act
  show keysWrite org h 7 slot false s = _
  simp only [keysWrite, onDev, bne_self_eq_false, command_takes_free _ _ _ _ taken, act]

theorem keyCommands : Claim.KeyCommands := by
  intro org h slot ph s n v e may c
  refine ⟨fun taken => ⟨fun key ok point => ?establish, fun ks ok unwraps => ?load, fun ok => ?generate, fun ok => ?sweep,
    fun ok => ?erase, fun ok => ?retire, fun no => ?loadRefused, fun no => ?eraseRefused⟩, fun taken => ?select⟩
  case establish => exact keysWrite_acts rfl rfl taken (keysCmd_establish ok point)
  case load => exact keysWrite_acts rfl rfl taken (keysCmd_load ok unwraps)
  case generate => exact keysWrite_acts rfl rfl taken (keysCmd_generate ok)
  case sweep => exact keysWrite_acts rfl rfl taken (keysCmd_sweep ok)
  case erase => exact keysWrite_acts rfl rfl taken (keysCmd_erase (.inl rfl) ok)
  case retire => exact keysWrite_acts rfl rfl taken (keysCmd_erase (.inr rfl) ok)
  case loadRefused => exact keysWrite_refused rfl rfl taken no
  case eraseRefused => exact keysWrite_refused rfl rfl taken no
  case select => exact fun idle => keySelect_runs taken (keysCmd_select idle)

/-! ### Walks (R271, R272, R275) -/

section
variable {h : Half} {slot : Nat} {s : State}

/-- The walk of an erased slot goes on while a tile of the slot is not LOST. -/
theorem walkDone_goesOn (walking : (s.dev.kslot h (slot % 1024)).walking = true)
    (left : (s.dev.eraseWalk h (slot % 1024)).walkLeft h (slot % 1024) = true) :
    Runs (.walkDone h slot) s (s.dev.eraseWalk h (slot % 1024)).settle := by
  show execWalkDone h slot s = _
  simp only [execWalkDone, onDevS, onDev, walking, left, Bool.not_true, Bool.false_eq_true, if_false, if_true]

theorem walkDone_ends (walking : (s.dev.kslot h (slot % 1024)).walking = true)
    (noneLeft : (s.dev.eraseWalk h (slot % 1024)).walkLeft h (slot % 1024) = false) :
    Runs (.walkDone h slot) s ((((s.dev.eraseWalk h (slot % 1024)).updSlot h (slot % 1024) fun k =>
      { k with walking := false }).raise h pgKEYS .walkDone (slot % 1024)).settle) := by
  show execWalkDone h slot s = _
  simp only [execWalkDone, onDevS, onDev, walking, noneLeft, Bool.not_true, Bool.false_eq_true, if_false]

end

/-- A half's tiles that a sweep has still to treat. -/
def sweepLeft (d : Dev) (h : Half) (w : Sweep) : List Nat := (d.tilesOfSlot h w.slot).filter fun t => d.oldPhase h w.slot t

/-- The device with a half's sweep moved on. -/
def sweepMoved (d : Dev) (h : Half) (w : Sweep) (t : Nat) (done : Bool) : Dev :=
  { d with keys := { d.keys with sweep := some (w.move h t done) } }

section
variable {h : Half} {s : State} {w : Sweep} (sweep : s.dev.keys.sweep = some w)
include sweep

/-- A walk of a sweep that has no tile left ends in its half. -/
theorem sweepWalkTile_ends (noneLeft : sweepLeft s.dev h w = []) :
    Runs (.sweepWalkTile h) s (sweepMoved s.dev h w (w.cursor h) true).settle := by
  unfold sweepLeft at noneLeft
  show execSweepWalkTile h s = _
  simp [execSweepWalkTile, onDevS, onDev, sweep, noneLeft, sweepMoved]

/-- A dirty tile is rewritten under the new phase. -/
theorem sweepWalkTile_dirty {t : Nat}
    (next : ((sweepLeft s.dev h w).filter fun t => s.dev.sweepable h t).find? (fun t => decide (w.cursor h ≤ t)) = some t)
    (dirty : (s.dev.tile h t).state = .dramDirty) :
    Runs (.sweepWalkTile h) s ((sweepMoved s.dev h w (max (w.cursor h) (t + 1)) false).sweepTile h t).settle := by
  unfold sweepLeft at next
  show execSweepWalkTile h s = _
  simp only [execSweepWalkTile, onDevS, onDev, sweep, next, dirty, sweepMoved, Option.orElse_some]

/-- A sweep ends where its walks have ended and no tile is left under the old phase. -/
theorem sweepDone_runs (whole : s.dev.split = false) (doneW : w.doneW = true) (doneE : w.doneE = true ∨ s.dev.single = true)
    (noneLeft : ∀ h, ∀ t ∈ s.dev.tilesOfSlot h w.slot, s.dev.oldPhase h w.slot t = false) :
    Runs .sweepDone s
      ((({ s.dev with keys := { s.dev.keys with sweep := none } } : Dev).slotBoth w.slot fun k => { k with state := .active }).keysRaise
        .sweepDone w.slot) := by
  have left : (s.dev.halves.any fun h => (s.dev.tilesOfSlot h w.slot).any fun t => s.dev.oldPhase h w.slot t) = false := by
    simp only [List.any_eq_false, Bool.not_eq_true]
    exact fun h _ => noneLeft h
  have ended : (w.doneE || s.dev.single) = true := by simpa only [Bool.or_eq_true] using doneE
  show execSweepDone s = _
  simp only [execSweepDone, onDev, sweep, whole, left, doneW, ended, Bool.not_true, Bool.or_self, Bool.false_eq_true, if_false]

end

theorem keyWalks : Claim.KeyWalks :=
  ⟨fun _ _ _ walking => ⟨walkDone_goesOn walking, walkDone_ends walking⟩,
    fun _ _ _ sweep => ⟨sweepWalkTile_ends sweep, fun _ => sweepWalkTile_dirty sweep⟩,
    fun _ _ => sweepDone_runs⟩

/-- Settles O38: the commands by the act of `KEYS.CMD` on the word written, the erase by the slot that it leaves in each half, the walks
each by its own rule. -/
theorem keySlots : Obligations.KeySlots := ⟨keyCommands, keyLoadsAndErasures, keyWalks⟩

end Sys2Proof.Machine.KeyStore
end

section
/-! PROOFS. The queued cipher engine (R265 to R270): a request submitted, the request that a core runs, ageing, and a core that fails. -/

namespace Sys2Proof.Machine.CipherQueue

/-! ### Submissions (R265 to R267) -/

/-- The request that a submission makes. -/
def requestOf (d : Dev) (h : Half) (org : Origin) (bits : BitVec 512) (src : List Byte) : CiphReq :=
  { id := (d.half h).ciph.nextId, bits := bits, src := src, org := org, queuedAt := d.uptime }

/-- The device with the number of that request taken. -/
def numbered (d : Dev) (h : Half) : Dev := d.upd h fun x => { x with ciph := { x.ciph with nextId := x.ciph.nextId + 1 } }

section
variable {d : Dev} {h : Half} {org : Origin} {bits : BitVec 512} {src : List Byte}

/-- A malformed request completes BAD_REQ (4). -/
theorem ciphSubmit_malformed (bad : (requestOf d h org bits src).bad = true) :
    d.ciphSubmit h org bits src = (numbered d h).ciphDone h (requestOf d h org bits src) 4 0 [] := by
  unfold requestOf at bad
  simp only [Dev.ciphSubmit, bad, if_true, numbered, requestOf]

/-- A request in order that no submitter waits before, and for which there is an entry, is queued and arbitrated. -/
theorem ciphSubmit_queued (good : (requestOf d h org bits src).bad = false) (noneWaits : (d.half h).ciph.waiting = [])
    (room : (d.half h).ciph.room (requestOf d h org bits src) = true) :
    d.ciphSubmit h org bits src = ((numbered d h).upd h fun x => { x with ciph := { x.ciph with
      queue := x.ciph.queue ++ [requestOf d h org bits src] } }).ciphServe h := by
  have kept : ((numbered d h).half h).ciph = { (d.half h).ciph with nextId := (d.half h).ciph.nextId + 1 } := by
    simp only [numbered, upd_half]
  have enters : (((numbered d h).half h).ciph.waiting.isEmpty &&
      ((numbered d h).half h).ciph.room (requestOf d h org bits src)) = true := by
    rw [kept, noneWaits]
    exact room
  unfold requestOf at good enters ⊢
  unfold numbered at enters ⊢
  simp only [Dev.ciphSubmit, good, Bool.false_eq_true, if_false]
  refine congrArg (Dev.ciphServe · h) (upd_congr _ _ ?_)
  simp only [enters, if_true]

end

/-- The nine operations of R267 are submissions that differ in their opcode. -/
theorem cipherRequests : Claim.CipherRequests := by
  intro h org req src s queues
  have of_submission {c : Instr} {op : Nat} (row : exec c s = ciphReq op h org req src s) : queues c op := by
    have runs {x : Dev} (eq : s.dev.ciphSubmit h org (BitVec.ofNat 512 (req.toNat / 256 * 256 + op)) src = x) : Runs c s x := by
      rw [Runs, row, ciphReq, onDev, eq]
    exact ⟨fun bad => runs (ciphSubmit_malformed bad), fun good noneWaits room => runs (ciphSubmit_queued good noneWaits room)⟩
  exact ⟨of_submission rfl, of_submission rfl, of_submission rfl, of_submission rfl, of_submission rfl, of_submission rfl,
    of_submission rfl, of_submission rfl, of_submission rfl⟩

/-! ### The engine (R268, R270) -/

section
variable {h : Half} {s : State}

/-- The request that a core runs completes with its result. -/
theorem cipherRequestDone_runs {core : Nat} {q : CiphReq} (running : (s.dev.half h).ciph.running core = some q) (elapsed : Nat) :
    Runs (.cipherRequestDone h core elapsed) s
      ((s.dev.ciphDone h q (s.dev.ciphRun h q).1 elapsed ((s.dev.ciphRun h q).2.map (BitVec.ofNat 8))).ciphServe h) := by
  show execCipherRequestDone h core elapsed s = _
  simp only [execCipherRequestDone, onDev, running]

/-- A `TILE_OPEN` whose CMAC differs gives status 1 and no bytes. -/
theorem ciphRun_open_mismatch {d : Dev} {q : CiphReq} (op : q.f 7 0 = 6)
    (differs : cmac (d.kslot h (q.f 35 26)).cmac.toNat (q.trailer.take 240 ++ q.bytes.take 65536) ≠ q.trailer.drop 240) :
    d.ciphRun h q = (1, []) := by
  simp only [Dev.ciphRun, op, differs, if_false]

/-- The oldest request of a class below high that is not dispatched is served as a high one (R268). -/
theorem cipherAgeing_runs {q : CiphReq}
    (oldest : ((s.dev.half h).ciph.queue ++ (s.dev.half h).ciph.waiting).find?
      (fun q => !q.aged && q.core.isNone && decide (1 < q.f 17 16)) = some q) :
    let old (l : List CiphReq) : List CiphReq := l.map fun r => if r.id = q.id then { r with aged := true } else r
    Runs (.cipherAgeing h) s
      ((s.dev.upd h fun x => { x with ciph := { x.ciph with queue := old x.ciph.queue, waiting := old x.ciph.waiting } }).ciphServe h) := by
  show execCipherAgeing h s = _
  simp only [execCipherAgeing, onDev, oldest]

/-- A core that runs nothing leaves service (R270). -/
theorem coreFailed_runs {core : Nat} (lt : core < 4) (serves : (s.dev.half h).ciph.coreFailed.getLsbD core = false)
    (idle : ((s.dev.half h).ciph.queue.filter fun q => q.core == some core) = []) :
    Runs (.coreFailed h core) s ((((s.dev.upd h fun x => { x with ciph := { x.ciph with
      coreFailed := x.ciph.coreFailed ||| BitVec.twoPow 4 core } }).raise h pgCIPH .coreFailed core).ciphServe h)) := by
  have inService : (4 ≤ core || (s.dev.half h).ciph.coreFailed.getLsbD core) = false := by
    simp only [serves, Bool.or_false, decide_eq_false_iff_not, Nat.not_le, lt]
  show execCoreFailed h core s = _
  simp only [execCoreFailed, onDev, inService, idle, Bool.false_eq_true, if_false, List.foldl_nil]

end

theorem cipherEngine : Claim.CipherEngine := by
  intro h s d
  refine ⟨fun core t q running => ⟨cipherRequestDone_runs running t, fun op differs => ?mismatch⟩, fun q => cipherAgeing_runs,
    fun core => coreFailed_runs⟩
  case mismatch =>
    have done := cipherRequestDone_runs running t
    rwa [ciphRun_open_mismatch op differs] at done

/-- Settles O39: each operation is a submission, and each of the engine's events acts by its own rule. -/
theorem cipherWork : Obligations.CipherWork := ⟨cipherRequests, cipherEngine⟩

end Sys2Proof.Machine.CipherQueue
end

section
/-! PROOFS. The queue, the fuses and every command: what a command leaves of the queue and of the OTP rows (R282, R283), and what a
step makes of the rows. -/

namespace Sys2Proof.Machine.Fuses

/-! ### Bits that are only ever set -/

/-- Every bit of `x` is a bit of `y`. -/
def Below {n : Nat} (x y : BitVec n) : Prop := x &&& y = x

theorem below_iff {n : Nat} {x y : BitVec n} : Below x y ↔ ∀ i, x.getLsbD i = true → y.getLsbD i = true := by
  constructor
  · intro b i hx
    rw [← b] at hx
    simp only [BitVec.getLsbD_and, Bool.and_eq_true] at hx
    exact hx.2
  · intro all
    refine BitVec.eq_of_getLsbD_eq fun i _x => ?_
    simp only [BitVec.getLsbD_and]
    cases hx : x.getLsbD i
    · rfl
    · simp only [all i hx, Bool.and_self]

theorem below_refl {n : Nat} (x : BitVec n) : Below x x := BitVec.and_self

theorem below_or {n : Nat} (x y : BitVec n) : Below x (x ||| y) :=
  below_iff.mpr fun i hx => by simp only [BitVec.getLsbD_or, hx, Bool.true_or]

theorem below_trans {n : Nat} {x y z : BitVec n} (b : Below x y) (c : Below y z) : Below x z :=
  (congrArg (fun v => v &&& z) b.symm).trans ((BitVec.and_assoc x y z).trans ((congrArg (fun v => x &&& v) c).trans b))

/-- A pattern that is read in `x` is read in what holds the bits of `x`. -/
theorem pattern_of_below {n : Nat} {x y m : BitVec n} (b : Below x y) (h : x &&& m = m) : y &&& m = m :=
  (BitVec.and_comm y m).trans (below_trans ((BitVec.and_comm m x).trans h) b)

/-- Each copy of a field only gains bits. -/
def Gains {n : Nat} (t u : Triple n) : Prop := Below t.a u.a ∧ Below t.b u.b ∧ Below t.c u.c

theorem gains_refl {n : Nat} (t : Triple n) : Gains t t := ⟨below_refl _, below_refl _, below_refl _⟩

theorem gains_trans {n : Nat} {t u v : Triple n} (p : Gains t u) (q : Gains u v) : Gains t v :=
  ⟨below_trans p.1 q.1, below_trans p.2.1 q.2.1, below_trans p.2.2 q.2.2⟩

theorem gains_burn {n : Nat} (t : Triple n) (copy bit : Nat) : Gains t (t.burn copy bit) := by
  match copy with
  | 0 => exact ⟨below_or .., below_refl _, below_refl _⟩
  | 1 => exact ⟨below_refl _, below_or .., below_refl _⟩
  | _ + 2 => exact ⟨below_refl _, below_refl _, below_or ..⟩

theorem below_and_and {n : Nat} {x y v w : BitVec n} (p : Below x v) (q : Below y w) : Below (x &&& y) (v &&& w) :=
  below_iff.mpr fun i both => by
    have bits := Bool.and_eq_true_iff.mp (BitVec.getLsbD_and.symm.trans both)
    exact BitVec.getLsbD_and.trans (Bool.and_eq_true_iff.mpr ⟨below_iff.mp p i bits.1, below_iff.mp q i bits.2⟩)

theorem below_or_or {n : Nat} {x y v w : BitVec n} (p : Below x v) (q : Below y w) : Below (x ||| y) (v ||| w) :=
  below_iff.mpr fun i one => by
    have bits := Bool.or_eq_true_iff.mp (BitVec.getLsbD_or.symm.trans one)
    exact BitVec.getLsbD_or.trans (Bool.or_eq_true_iff.mpr (bits.imp (below_iff.mp p i) (below_iff.mp q i)))

/-- The majority of three copies gains the bits that they gain. -/
theorem below_vote {n : Nat} {t u : Triple n} (g : Gains t u) : Below t.vote u.vote :=
  have b := g.2.1
  have c := g.2.2
  below_or_or (below_or_or (below_and_and g.1 b) (below_and_and g.1 c)) (below_and_and b c)

/-! ### The lifecycle and the security version move only forward -/

theorem ite_holds {α : Type} {c : Prop} [dec : Decidable c] {P : α → Prop} {a b : α} (yes : P a) (no : P b) : P (if c then a else b) := by
  induction dec with
  | isTrue => exact yes
  | isFalse => exact no

theorem ite_mono {p q : Prop} [yes : Decidable p] [dec : Decidable q] {n a b : Nat} (imp : p → q) (le : a ≤ b) (bound : a ≤ n) :
    (if p then n else a) ≤ (if q then n else b) := by
  induction yes with
  | isTrue holds => exact (if_pos (imp holds)).ge
  | isFalse => exact ite_holds (P := fun k => a ≤ k) bound le

theorem ite_le {p : Prop} [dec : Decidable p] {n a m : Nat} (yes : n ≤ m) (no : a ≤ m) : (if p then n else a) ≤ m :=
  ite_holds (P := fun k => k ≤ m) yes no

theorem lifeOf_mono {v w : BitVec 16} (b : Below v w) : lifeOf v ≤ lifeOf w := by
  have reads (m : BitVec 16) : v &&& m = m → w &&& m = m := pattern_of_below b
  have one : 1 ≤ 2 := Nat.le_succ 1
  have two : 2 ≤ 3 := Nat.le_succ 2
  have three : 3 ≤ 4 := Nat.le_succ 3
  exact ite_mono (reads _) (ite_mono (reads _) (ite_mono (reads _) (ite_mono (reads _) le_rfl (Nat.zero_le 1)) (ite_le one (Nat.zero_le 2)))
    (ite_le two (ite_le (one.trans two) (Nat.zero_le 3)))) (ite_le three (ite_le (two.trans three)
      (ite_le (one.trans (two.trans three)) (Nat.zero_le 4))))

/-- What `p` takes, it takes of what a weaker `q` takes. -/
theorem takeWhile_length_mono {α : Type} {p q : α → Bool} (imp : ∀ a, p a = true → q a = true) (l : List α) :
    (l.takeWhile p).length ≤ (l.takeWhile q).length := by
  have both : (fun a => decide (p a = true ∧ q a = true)) = p :=
    funext fun a => Bool.eq_iff_iff.mpr (decide_eq_true_iff.trans ⟨And.left, fun pa => ⟨pa, imp a pa⟩⟩)
  have taken : (l.takeWhile q).takeWhile p = l.takeWhile p := (List.takeWhile_takeWhile p q l).trans (congrArg (List.takeWhile · l) both)
  exact taken ▸ (List.takeWhile_prefix p).length_le

theorem thermo_mono {n : Nat} {v w : BitVec n} (b : Below v w) : thermo v ≤ thermo w :=
  takeWhile_length_mono (below_iff.mp b) _

/-! ### Rows that only gain bits -/

/-- A row that came from `o` by programming alone. -/
structure Programmed (o p : OtpRow) : Prop where
  svn : Gains o.svn p.svn
  lifecycle : Gains o.lifecycle p.lifecycle
  strapLock : Gains o.strapLock p.strapLock
  strapVal : Gains o.strapVal p.strapVal
  revoke : Gains o.revoke p.revoke
  once : p.onceBytes = o.onceBytes
  wcrc : p.wcrc = o.wcrc
  repair : p.repair = o.repair
  rcrc : p.rcrc = o.rcrc

theorem programmed_refl (o : OtpRow) : Programmed o o :=
  ⟨gains_refl _, gains_refl _, gains_refl _, gains_refl _, gains_refl _, rfl, rfl, rfl, rfl⟩

theorem programmed_trans {o p q : OtpRow} (x : Programmed o p) (y : Programmed p q) : Programmed o q where
  svn := gains_trans x.svn y.svn
  lifecycle := gains_trans x.lifecycle y.lifecycle
  strapLock := gains_trans x.strapLock y.strapLock
  strapVal := gains_trans x.strapVal y.strapVal
  revoke := gains_trans x.revoke y.revoke
  once := y.once.trans x.once
  wcrc := y.wcrc.trans x.wcrc
  repair := y.repair.trans x.repair
  rcrc := y.rcrc.trans x.rcrc

theorem programmed_burn (o : OtpRow) (f : OtpFld) (bit copy : Nat) : Programmed o (o.burn f bit copy) := by
  induction f
  case svn => exact { programmed_refl o with svn := gains_burn .. }
  case life => exact { programmed_refl o with lifecycle := gains_burn .. }
  case strapLock => exact { programmed_refl o with strapLock := gains_burn .. }
  case strapVal => exact { programmed_refl o with strapVal := gains_burn .. }
  case revoke => exact { programmed_refl o with revoke := gains_burn .. }

/-- A fold of programmings is one. -/
theorem programmed_foldl {β : Type} {f : OtpRow → β → OtpRow} (each : ∀ o b, Programmed o (f o b)) (l : List β) (o : OtpRow) :
    Programmed o (l.foldl f o) := by
  induction l generalizing o with
  | nil => exact programmed_refl o
  | cons b l ih => exact programmed_trans (each o b) (ih _)

theorem programmed_program (o : OtpRow) (bits : List (OtpFld × Nat)) : Programmed o (o.program bits) :=
  programmed_foldl (fun _ (b : OtpFld × Nat) => programmed_foldl (fun _x c => programmed_burn _ b.1 b.2 c) _ _) _ _

/-! ### Both rows -/

/-- Both rows came by programming alone. -/
def RowsProgrammed (o p : Pair OtpRow) : Prop := ∀ k : Half, Programmed (o.get k) (p.get k)

theorem rowsProgrammed_refl (o : Pair OtpRow) : RowsProgrammed o o := fun k => programmed_refl (o.get k)

theorem rowsProgrammed_pulse (o : Pair OtpRow) (p : Half × OtpFld × Nat × Nat) : RowsProgrammed o (otpPulse o p) := by
  obtain ⟨h, f, bit, copy⟩ := p
  intro k
  induction h <;> induction k
  exacts [programmed_burn .., programmed_refl _, programmed_refl _, programmed_burn ..]

theorem rowsProgrammed_pulses (ps : List (Half × OtpFld × Nat × Nat)) (o : Pair OtpRow) : RowsProgrammed o (ps.foldl otpPulse o) := by
  induction ps generalizing o with
  | nil => exact rowsProgrammed_refl o
  | cons p ps ih => exact fun k => programmed_trans (rowsProgrammed_pulse o p k) (ih _ k)

theorem rowsProgrammed_exchange (o : Pair OtpRow) : RowsProgrammed o (otpExchange o) := fun
  | .west => programmed_program ..
  | .east => programmed_program ..

/-- Programming keeps what rows have from the rows `r`, and the order of lifecycle and security version follows from the bits. -/
theorem fusesFrom_of_programmed {r o p : Pair OtpRow} (from_ : fusesFrom r o) (g : RowsProgrammed o p) : fusesFrom r p := by
  intro k
  have w := g k
  refine (from_ k).imp (fun g => gains_trans g w.svn) <| And.imp (fun g => gains_trans g w.lifecycle) <|
    And.imp (fun g => gains_trans g w.strapLock) <| And.imp (fun g => gains_trans g w.strapVal) <|
    And.imp (fun g => gains_trans g w.revoke) <| And.imp (fun e => e.trans w.once.symm) <|
    And.imp (fun e => e.trans w.wcrc.symm) <| And.imp (fun e => e.trans w.repair.symm) <| And.imp (fun e => e.trans w.rcrc.symm) <|
    And.imp (fun le => le.trans (lifeOf_mono (below_vote w.lifecycle))) fun le => le.trans (thermo_mono (below_vote w.svn))

/-! ### What a command leaves -/

/-- A run of the OTP command `c` in hand, if there is one. -/
def otpRunOf (c : Option (Half × Nat × Nat)) (fail : Option Nat) (s : State) : State :=
  match c with
  | none => s
  | some (h, op, arg) =>
    let all := s.dev.halves.flatMap fun k => otpPulses k (s.dev.otpcBits h op arg)
    let bad := match fail with
      | some k => decide (k < all.length)
      | none => false
    let go := if bad then all.take (fail.getD 0) else all
    let d := { s.dev with otpc := none }
    let d := d.otpcStatus (if bad then 5 else 2)
    { s with otp := go.foldl otpPulse s.otp, dev := d.raise h pgOTPC .otpcCmdDone }

/-- The OTP command in hand keeps the queue and only programs. -/
theorem otpRunOf_programs (c : Option (Half × Nat × Nat)) (fail : Option Nat) (s : State) :
    (otpRunOf c fail s).pending = s.pending ∧ RowsProgrammed s.otp (otpRunOf c fail s).otp := by
  induction c with
  | none => exact ⟨rfl, rowsProgrammed_refl _⟩
  | some c => exact ⟨rfl, rowsProgrammed_pulses _ _⟩

theorem otpRun_programs (fail : Option Nat) (s : State) :
    (otpRun fail s).pending = s.pending ∧ RowsProgrammed s.otp (otpRun fail s).otp := otpRunOf_programs s.dev.otpc fail s

/-- The outcome is a next state with the same queue, and its rows came by programming alone. -/
def OnlyPrograms (o : Out) (s : State) : Prop := ∃ t, o = .next t ∧ t.pending = s.pending ∧ RowsProgrammed s.otp t.otp

theorem onlyPrograms_onDev (d : Dev) (s : State) : OnlyPrograms (.next { s with dev := d }) s :=
  ⟨_, rfl, rfl, rowsProgrammed_refl _⟩

theorem onlyPrograms_onOtp (fail : Option Nat) (f : Dev → Dev) (s : State) : OnlyPrograms (onOtp fail f s) s :=
  ⟨_, rfl, otpRun_programs fail { s with dev := f s.dev }⟩

theorem onlyPrograms_otpcWrite (org : Origin) (h : Half) (op arg : Nat) (fail : Option Nat) (s : State) :
    OnlyPrograms (otpcWrite org h op arg fail s) s := by
  simp only [otpcWrite]
  exact onlyPrograms_onOtp ..

theorem onlyPrograms_ite {c : Prop} [dec : Decidable c] {o p : Out} {s : State} (yes : OnlyPrograms o s) (no : OnlyPrograms p s) :
    OnlyPrograms (if c then o else p) s :=
  ite_holds (P := fun o => OnlyPrograms o s) yes no

/-- A half whose ROM starts: its islands held in reset, no halt, and the lifecycle that its row reads as. -/
def romStart (s : State) (h : Half) : Dev := s.dev.upd h fun x => { x with
  pwr := { x.pwr with inReset := 0x17FFFF }
  boot := { x.boot with halt := 0, life := (s.otp.get h).life } }

/-- The ROM with the rows it goes by: a lifecycle that does not run halts it (3), and East waits for the Ford (6). -/
def romLives (h : Half) (us : Nat) (otp : Pair OtpRow) (d : Dev) (s : State) : Out :=
  if (otp.get h).life = 0 ∨ (otp.get h).life = 4 then .next { s with otp := otp, dev := d.romHalt h 3 }
  else match h with
    | .west => .next { s with otp := otp, dev := d.bootWest otp us }
    | .east => .next { s with otp := otp, dev := if d.fordUp .east then d.bootEast otp us else d.romHalt .east 6 }

/-- The ROM with the rows it finds: a bad one (1), and two that differ (2), halt it. -/
def romRows (h : Half) (us : Nat) (s : State) : Out :=
  let both := !s.dev.single && s.dev.fordUp h
  if !(s.otp.get h).crcOk then .next { s with dev := (romStart s h).romHalt h 1 }
  else if both && !(s.otp.west.sameOnce s.otp.east) then
    .next { s with dev := (romStart s h).eachHalf fun d k => (d.romHalt k 2).raise k pgOTPC .otpMismatch }
  else
    let otp := if both then otpExchange s.otp else s.otp
    romLives h us otp ((romStart s h).eachHalf fun d k => if otp.get k = s.otp.get k then d else d.raise k pgOTPC .otpProgrammed) s

theorem romBoot_eq (h : Half) (us : Nat) (s : State) :
    execRomBoot h us s = if !(s.dev.romMay h) then .next { s with dev := s.dev } else romRows h us s := rfl

theorem onlyPrograms_romLives {otp : Pair OtpRow} {s : State} (grows : RowsProgrammed s.otp otp) (h : Half) (us : Nat) (d : Dev) :
    OnlyPrograms (romLives h us otp d s) s := by
  have after (d : Dev) : OnlyPrograms (.next { s with otp := otp, dev := d }) s := ⟨_, rfl, rfl, grows⟩
  refine onlyPrograms_ite (after _) ?_
  induction h <;> exact after _

/-- The ROM programs nothing but what the exchange of the two rows asks for (R290). -/
theorem onlyPrograms_romBoot (h : Half) (us : Nat) (s : State) : OnlyPrograms (execRomBoot h us s) s := by
  have grows (both : Bool) : RowsProgrammed s.otp (if both then otpExchange s.otp else s.otp) := by
    induction both
    · exact rowsProgrammed_refl _
    · exact rowsProgrammed_exchange _
  rw [romBoot_eq]
  exact onlyPrograms_ite (onlyPrograms_onDev _ s) (onlyPrograms_ite (onlyPrograms_onDev _ s) (onlyPrograms_ite (onlyPrograms_onDev _ s)
    (onlyPrograms_romLives (grows _) ..)))

/-- The outcome is a next state with the same queue and the same rows. -/
def Kept (o : Out) (s : State) : Prop := match o with
  | .next t => (t.pending, t.otp) = (s.pending, s.otp)
  | _ => False

theorem kept_refl (s : State) : (s.pending, s.otp) = (s.pending, s.otp) := rfl

theorem next_of_kept {o : Out} {s : State} (k : Kept o s) : ∃ d, o = .next { s with dev := d } := by
  induction o with
  | next t =>
    obtain ⟨queue, rows⟩ := Prod.mk.inj (show (t.pending, t.otp) = (s.pending, s.otp) from k)
    exact ⟨t.dev, by rw [← queue, ← rows]⟩
  | _ => cases k

/-- What a command leaves: one that can program fuses only programs, and any other keeps the queue and the rows. -/
def Leaves (burns : Bool) (i : Instr) (s : State) : Prop := match burns with
  | true => OnlyPrograms (exec i s) s
  | false => Kept (exec i s) s

set_option tactic.hygienic false in
theorem exec_leaves (i : Instr) (s : State) : Leaves (mayBurn i) i s := by
  induction i
  case romBoot => exact onlyPrograms_romBoot h us s
  case svnAdvance => exact onlyPrograms_otpcWrite org h 1 arg fail s
  case revokeSigner => exact onlyPrograms_otpcWrite org h 2 arg fail s
  case lcAdvance => exact onlyPrograms_otpcWrite org h 3 arg fail s
  case lockStrap => exact onlyPrograms_otpcWrite org h 4 arg fail s
  case registerWrite => exact (onlyPrograms_onOtp .. : OnlyPrograms (execRegisterWrite org h page off v full fail s) s)
  case regWr => exact (onlyPrograms_onOtp .. : OnlyPrograms (execRegWr h fail s) s)
  case regResp => exact (onlyPrograms_onOtp .. : OnlyPrograms (execRegResp h fail s) s)
  all_goals exact kept_refl s

theorem exec_leaves_otp {i : Instr} (safe : mayBurn i = false) (s : State) : ∃ d, exec i s = .next { s with dev := d } :=
  next_of_kept (safe ▸ exec_leaves i s : Leaves false i s)

theorem exec_onlyPrograms (i : Instr) (s : State) : OnlyPrograms (exec i s) s := by
  cases burns : mayBurn i
  case false =>
    obtain ⟨d, e⟩ := exec_leaves_otp burns s
    exact e ▸ onlyPrograms_onDev d s
  case true => exact (burns ▸ exec_leaves i s : Leaves true i s)

/-- Settles O3: a command that cannot program fuses changes the device alone, and the others only program. -/
theorem everyCommandCompletes : Obligations.EveryCommandCompletes := by
  intro i s
  obtain ⟨t, e, queue, rows⟩ := exec_onlyPrograms i s
  refine ⟨t, e, queue, fun safe => ?_⟩
  obtain ⟨d, e'⟩ := exec_leaves_otp safe s
  have same := congrArg State.otp (Host.Outcome.next.inj (e.symm.trans e'))
  exact same

/-! ### What a step leaves -/

/-- A step with the queue `q`. -/
def stepWith (q : List Instr) (s : State) : Out :=
  match q with
  | [] => .next s.tick
  | c :: rest => exec c { s with pending := rest }

theorem step_idle {s : State} (idle : s.pending = []) : step s = .next s.tick := congrArg (fun q => stepWith q s) idle

theorem step_front {s : State} {i : Instr} {rest : List Instr} (front : s.pending = i :: rest) :
    step s = exec i { s with pending := rest } := congrArg (fun q => stepWith q s) front

/-- A period of the clock while the device has G0, without the OTP command in hand. -/
def ticked (s : State) : State :=
  let d := { s.dev with time := s.dev.time + 40, uptime := s.dev.uptime + 40 }
  { s with dev := if d.west.ctl.waiting.isEmpty && d.east.ctl.waiting.isEmpty then d else (d.accFlushAll s.otp).settleT }

theorem tick_programs (s : State) : RowsProgrammed s.otp s.tick.otp :=
  ite_holds (P := fun t : State => RowsProgrammed s.otp t.otp) (otpRun_programs none (ticked s)).2 (rowsProgrammed_refl _)

/-- Settles O5: every step only programs, and programming keeps the bits of `r` and moves its counted fields forward. -/
theorem fusesOnlyProgram : Obligations.FusesOnlyProgram := by
  intro r s t from_ run
  refine fusesFrom_of_programmed from_ ?_
  cases queue : s.pending with
  | nil =>
    exact Host.Outcome.next.inj ((step_idle queue).symm.trans run) ▸ tick_programs s
  | cons i rest =>
    obtain ⟨u, e, keeps, grows⟩ := exec_onlyPrograms i { s with pending := rest }
    exact Host.Outcome.next.inj (e.symm.trans ((step_front queue).symm.trans run)) ▸ grows

theorem fusesFrom_refl (o : Pair OtpRow) : fusesFrom o o := fun _x =>
  ⟨gains_refl _, gains_refl _, gains_refl _, gains_refl _, gains_refl _, rfl, rfl, rfl, rfl, Nat.le_refl _, Nat.le_refl _⟩

theorem sameOnce_refl (o : OtpRow) : o.sameOnce o = true := by
  rw [OtpRow.sameOnce, beq_self_eq_true, beq_self_eq_true, Bool.and_self]

/-- Settles O6: both rows at reset are the same unprogrammed row in PRODUCTION. -/
theorem fusesAtReset : Obligations.FusesAtReset := by
  refine ⟨fusesFrom_refl _, fun k => ?_⟩
  have row : State.reset.otp.get k = {} := by induction k <;> rfl
  rw [row]
  exact ⟨sameOnce_refl _, by decide, by decide⟩

/-! ### The queue and the clock -/

/-- Settles O1: by the definition of a step. -/
theorem stepRunsFrontCommand : Obligations.StepRunsFrontCommand := fun _x _y => rfl

theorem otpRun_idle {s : State} (fail : Option Nat) (noCommand : s.dev.otpc = none) : otpRun fail s = s :=
  congrArg (fun c => otpRunOf c fail s) noCommand

/-- Settles O2: where no access waits and no OTP command is in hand, the tick moves the two counts. -/
theorem emptyQueueTicks : Obligations.EmptyQueueTicks := by
  intro s idle noCommand west east
  have quiet : (s.dev.west.ctl.waiting.isEmpty && s.dev.east.ctl.waiting.isEmpty) = true := by rw [west, east]; rfl
  have ticks := step_idle idle
  refine ⟨fun on => ticks.trans (congrArg Host.Outcome.next ((if_pos on).trans ?_)), fun off =>
    ticks.trans (congrArg Host.Outcome.next (if_neg (ne_true_of_eq_false off)))⟩
  exact (congrArg (fun d : Dev => otpRun none { s with dev := d }) (if_pos quiet)).trans (otpRun_idle none noCommand)

/-- Settles O8: the opcode table gives no row any bits. -/
theorem noWordSpellsACommand : Obligations.NoWordSpellsACommand := fun _x _y _z => ⟨rfl, rfl⟩

end Sys2Proof.Machine.Fuses
end

section
/-! PROOFS. What register writes, events, and the journal leave: everything but a half's registers and what is sent (R349, R354). -/

namespace Sys2Proof.Machine.BeyondRegisters

/-! ### What a command leaves -/

/-- What a command leaves, from what its meaning makes of the device. -/
theorem next_eq {s : State} {d e : Dev} (q : d = e) : Host.Outcome.next { s with dev := d } = (.next { s with dev := e } : Out) := by rw [q]

/-- What a command leaves once the halves have settled. -/
theorem settled_eq {s : State} {d e : Dev} (q : d = e) :
    Host.Outcome.next { s with dev := d.settleT } = (.next { s with dev := e.settleT } : Out) := by rw [q]

section
variable {i : Instr} {s : State} {c : Prop} [Decidable c] {d e : Dev}

theorem runs_then (means : exec i s = .next { s with dev := if c then d else e }) (yes : c) : Runs i s d :=
  means.trans (next_eq (if_pos yes))

theorem runs_else (means : exec i s = .next { s with dev := if c then d else e }) (no : ¬c) : Runs i s e :=
  means.trans (next_eq (if_neg no))

theorem settles_then (means : exec i s = .next { s with dev := (if c then d else e).settleT }) (yes : c) : Runs i s d.settleT :=
  means.trans (settled_eq (if_pos yes))

theorem settles_else (means : exec i s = .next { s with dev := (if c then d else e).settleT }) (no : ¬c) : Runs i s e.settleT :=
  means.trans (settled_eq (if_neg no))

end

section
variable {α β : Type} {c : Prop} [Decidable c] {x a b : α}

theorem eq_then (means : x = if c then a else b) (yes : c) : x = a := means.trans (if_pos yes)

theorem eq_else (means : x = if c then a else b) (no : ¬c) : x = b := means.trans (if_neg no)

/-- What both branches leave, a choice leaves. -/
theorem ite_keeps {part : α → β} {y : β} (yes : part a = y) (no : part b = y) : part (if c then a else b) = y := by
  split
  · exact yes
  · exact no

end

theorem not_not {b : Bool} (yes : b = true) : ¬(!b) = true := by rw [yes]; decide

/-! ### The device beyond its registers -/

/-- A half without its registers, events and journal. -/
def beyondHalf (x : HalfState) : HalfState := { x with ctl := {} }

/-- The device without the registers, events and journals of its halves, and without what it has sent. -/
def beyond (d : Dev) : Dev := { d with west := beyondHalf d.west, east := beyondHalf d.east, out := [] }

theorem beyond_upd (d : Dev) (h : Half) (f : HalfState → HalfState) (q : ∀ x, beyondHalf (f x) = beyondHalf x) :
    beyond (d.upd h f) = beyond d := by
  induction h
  · exact congrArg (fun x => { beyond d with west := x }) (q d.west)
  · exact congrArg (fun x => { beyond d with east := x }) (q d.east)

/-- A change of a half's registers, events or journal. -/
theorem beyond_ctl (d : Dev) (h : Half) (f : HalfState → CtlHalf) : beyond (d.upd h fun x => { x with ctl := f x }) = beyond d :=
  beyond_upd _ _ _ fun _x => rfl

theorem beyond_foldl {β : Type} {f : Dev → β → Dev} (q : ∀ d b, beyond (f d b) = beyond d) (l : List β) (d : Dev) :
    beyond (l.foldl f d) = beyond d := by
  induction l generalizing d with
  | nil => rfl
  | cons b l ih => rw [List.foldl_cons, ih, q]

theorem beyond_eachHalf {f : Dev → Half → Dev} (q : ∀ d h, beyond (f d h) = beyond d) (d : Dev) : beyond (d.eachHalf f) = beyond d :=
  beyond_foldl q _ d

@[simp] theorem beyond_emit (d : Dev) (o : Output) : beyond (d.emit o) = beyond d := rfl

@[simp] theorem beyond_setReg (d : Dev) (h : Half) (p o v : Nat) : beyond (d.setReg h p o v) = beyond d :=
  beyond_ctl ..

@[simp] theorem beyond_setFld (d : Dev) (h : Half) (p o hi lo v : Nat) : beyond (d.setFld h p o hi lo v) = beyond d := beyond_setReg ..

@[simp] theorem beyond_sat (d : Dev) (h : Half) (p o n : Nat) : beyond (d.sat h p o n) = beyond d := beyond_setReg ..

@[simp] theorem beyond_setReg64 (d : Dev) (h : Half) (p o v : Nat) : beyond (d.setReg64 h p o v) = beyond d := by
  simp only [Dev.setReg64, beyond_setReg]

@[simp] theorem beyond_setWords (d : Dev) (h : Half) (p o n v : Nat) : beyond (d.setWords h p o n v) = beyond d :=
  beyond_foldl (fun _x _y => beyond_setReg ..) _ d

@[simp] theorem beyond_chartPut (d : Dev) (h : Half) (ws : List (Nat × Word)) : beyond (d.chartPut h ws) = beyond d :=
  beyond_ctl ..

@[simp] theorem beyond_setEvRaw (d : Dev) (h : Half) (p : Nat) (v : DWord) : beyond (d.setEvRaw h p v) = beyond d :=
  beyond_ctl ..

@[simp] theorem beyond_evRecord (d : Dev) (h : Half) (p b x y : Nat) : beyond (d.evRecord h p b x y) = beyond d :=
  beyond_ctl ..

@[simp] theorem beyond_evDeliver (d : Dev) (h : Half) (p : Nat) (was : DWord) : beyond (d.evDeliver h p was) = beyond d :=
  ite_keeps (ite_keeps rfl rfl) rfl

@[simp] theorem beyond_raiseBit (d : Dev) (h : Half) (p b x y : Nat) : beyond (d.raiseBit h p b x y) = beyond d := by
  simp only [Dev.raiseBit, beyond_evDeliver, beyond_evRecord, beyond_setEvRaw]

@[simp] theorem beyond_raise (d : Dev) (h : Half) (p : Nat) (e : Ev) (x y : Nat) : beyond (d.raise h p e x y) = beyond d :=
  beyond_raiseBit ..

@[simp] theorem beyond_jAppend (d : Dev) (h : Half) (e : JEntry) : beyond (d.jAppend h e) = beyond d :=
  ite_keeps (ite_keeps (beyond_ctl ..) rfl)
    (ite_keeps ((beyond_raise ..).trans ((beyond_sat ..).trans (beyond_ctl ..))) (beyond_ctl ..))

@[simp] theorem beyond_journal (d : Dev) (org : Origin) (h : Half) (p o r : Nat) (old new : Word) (t : Nat) :
    beyond (d.journal org h p o r old new t) = beyond d :=
  ite_keeps ((beyond_ctl ..).trans (beyond_jAppend ..)) (beyond_jAppend ..)

@[simp] theorem beyond_journalCmd (d : Dev) (org : Origin) (h : Half) (p o v : Nat) (w : Bool) (r : Nat) :
    beyond (d.journalCmd org h p o v w r) = beyond d :=
  ite_keeps ((beyond_journal ..).trans (beyond_journal ..)) (beyond_journal ..)

/-! ### Fields read from it -/

section
variable {d e : Dev} (q : beyond e = beyond d)
include q

theorem single_eq : e.single = d.single := congrArg (fun x => x.west.ford.state == .absent) q
theorem halves_eq : e.halves = d.halves := by simp only [Dev.halves, single_eq q]
theorem otpc_eq : e.otpc = d.otpc := congrArg (·.otpc) q
theorem cast_eq : e.cast = d.cast := congrArg (·.cast) q
theorem supv_eq : e.supv = d.supv := congrArg (·.supv) q
theorem beyondHalf_eq (h : Half) : beyondHalf (e.half h) = beyondHalf (d.half h) := by
  induction h
  · exact congrArg (·.west) q
  · exact congrArg (·.east) q
theorem pwr_eq (h : Half) : (e.half h).pwr = (d.half h).pwr := congrArg (·.pwr) (beyondHalf_eq q h)
theorem boot_eq (h : Half) : (e.half h).boot = (d.half h).boot := congrArg (·.boot) (beyondHalf_eq q h)
theorem tier_eq (h : Half) : (e.half h).tier = (d.half h).tier := congrArg (·.tier) (beyondHalf_eq q h)

end

/-! ### The halves that exist -/

theorem single_upd {f : HalfState → HalfState} (d : Dev) (h : Half) (q : (f (d.half h)).ford.state = (d.half h).ford.state) :
    (d.upd h f).single = d.single := by
  induction h
  · exact congrArg (· == FordState.absent) q
  · rfl

theorem halves_upd {f : HalfState → HalfState} (d : Dev) (h : Half) (q : (f (d.half h)).ford.state = (d.half h).ford.state) :
    (d.upd h f).halves = d.halves := by
  simp only [Dev.halves, single_upd d h q]

@[simp] theorem single_setReg (d : Dev) (h : Half) (p o v : Nat) : (d.setReg h p o v).single = d.single := single_eq (beyond_setReg ..)

@[simp] theorem single_setWords (d : Dev) (h : Half) (p o n v : Nat) : (d.setWords h p o n v).single = d.single :=
  single_eq (beyond_setWords ..)

@[simp] theorem single_raise (d : Dev) (h : Half) (p : Nat) (e : Ev) (x y : Nat) : (d.raise h p e x y).single = d.single :=
  single_eq (beyond_raise ..)

/-- A change of each half that leaves the Ford leaves which halves exist. -/
theorem single_eachHalf {f : Dev → Half → Dev} (q : ∀ d h, (f d h).single = d.single) (d : Dev) : (d.eachHalf f).single = d.single := by
  unfold Dev.eachHalf
  induction d.halves generalizing d with
  | nil => rfl
  | cons h l ih => rw [List.foldl_cons, ih, q]

/-- West always exists, and East where the device is whole. -/
theorem halves_cases (d : Dev) : (d.single = true ∧ d.halves = [.west]) ∨ (d.single = false ∧ d.halves = [.west, .east]) := by
  cases s : d.single
  · exact .inr ⟨rfl, eq_else rfl (ne_true_of_eq_false s)⟩
  · exact .inl ⟨rfl, eq_then rfl s⟩

theorem west_mem_halves (d : Dev) : Half.west ∈ d.halves := by
  obtain ⟨_, l⟩ | ⟨_, l⟩ := halves_cases d <;> exact l ▸ List.mem_cons_self

/-! ### A register command's island and entry -/

theorem single_wake (d : Dev) (h : Half) (i : Nat) : (d.wake h i).single = d.single :=
  ite_keeps (ite_keeps (single_upd d h rfl) rfl) rfl

theorem otpc_wake (d : Dev) (h : Half) (i : Nat) : (d.wake h i).otpc = d.otpc := ite_keeps (ite_keeps (upd_otpc ..) rfl) rfl

section
variable (d : Dev) (org : Origin) (h : Half) (page off v : Nat) (wide : Bool)

theorem halves_entry : (d.entry org h page off v wide).halves = d.halves := by
  simp only [Dev.halves, Dev.entry, single_eq (beyond_journalCmd ..), single_wake]

theorem otpc_refusal : (d.refusal org h page off v wide).otpc = d.otpc :=
  (otpc_eq (beyond_journalCmd ..)).trans (otpc_wake ..)

end

end Sys2Proof.Machine.BeyondRegisters
end

section
/-! PROOFS. The OTP commands (R282, R293, R297): which pulses a command makes in both rows, what they program, and what a refusal or a
failing pulse leaves. -/

namespace Sys2Proof.Machine.OtpProof
open Fuses BeyondRegisters

/-! ### A field's bit, copy by copy -/

/-- Width of a counted field. -/
def width : OtpFld → Nat
  | .svn => 64
  | _ => 16

/-- A field of a row. -/
def field (o : OtpRow) : (f : OtpFld) → Triple (width f)
  | .svn => o.svn
  | .life => o.lifecycle
  | .strapLock => o.strapLock
  | .strapVal => o.strapVal
  | .revoke => o.revoke

/-- A copy of a field; copies from 2 on name the third, as the pulses do. -/
def copy {n : Nat} (t : Triple n) (c : Nat) : BitVec n := [t.a, t.b].getD c t.c

theorem copy_burn {n i : Nat} (lt : i < n) (t : Triple n) (c : Nat) : (copy (t.burn c i) c).getLsbD i = true := by
  have one (x : BitVec n) : (x ||| BitVec.twoPow n i).getLsbD i = true :=
    BitVec.getLsbD_or.trans (Bool.or_eq_true_iff.mpr (.inr
      ((BitVec.getLsbD_twoPow ..).trans (Bool.and_eq_true_iff.mpr ⟨decide_eq_true lt, decide_eq_true rfl⟩))))
  induction c with
  | zero => exact one _
  | succ c => induction c with
    | zero => exact one _
    | succ => exact one _

theorem below_copy {n : Nat} {t u : Triple n} (g : Gains t u) (c : Nat) : Below (copy t c) (copy u c) := by
  induction c with
  | zero => exact g.1
  | succ c => induction c with
    | zero => exact g.2.1
    | succ => exact g.2.2

/-- A bit of a copy of a field. -/
def copyBit (o : OtpRow) (f : OtpFld) (i c : Nat) : Bool := (copy (field o f) c).getLsbD i

theorem field_burn (o : OtpRow) (f : OtpFld) (i c : Nat) : field (o.burn f i c) f = (field o f).burn c i := by induction f <;> rfl

theorem copyBit_burn {f : OtpFld} {i : Nat} (lt : i < width f) (o : OtpRow) (c : Nat) : copyBit (o.burn f i c) f i c = true :=
  (congrArg (fun t => (copy t c).getLsbD i) (field_burn o f i c)).trans (copy_burn lt _ c)

theorem gains_field {o p : OtpRow} (g : Programmed o p) (f : OtpFld) : Gains (field o f) (field p f) := by
  induction f with
  | svn => exact g.svn
  | life => exact g.lifecycle
  | strapLock => exact g.strapLock
  | strapVal => exact g.strapVal
  | revoke => exact g.revoke

theorem copyBit_mono {o p : OtpRow} (g : Programmed o p) {f : OtpFld} {i c : Nat} (set : copyBit o f i c = true) :
    copyBit p f i c = true := below_iff.mp (below_copy (gains_field g f) c) i set

/-- A bit programmed in every copy is read. -/
theorem vote_of_copies {o : OtpRow} {f : OtpFld} {i : Nat} (all : ∀ c ∈ [0, 1, 2], copyBit o f i c = true) :
    (field o f).vote.getLsbD i = true := by
  have a : (field o f).a.getLsbD i = true := all 0 (by decide)
  have b : (field o f).b.getLsbD i = true := all 1 (by decide)
  have both := BitVec.getLsbD_and.trans (Bool.and_eq_true_iff.mpr ⟨a, b⟩)
  exact BitVec.getLsbD_or.trans (Bool.or_eq_true_iff.mpr (.inl (BitVec.getLsbD_or.trans (Bool.or_eq_true_iff.mpr (.inl both)))))

/-! ### What a list of pulses programs -/

theorem copyBit_pulse {f : OtpFld} {i : Nat} (lt : i < width f) (o : Pair OtpRow) (k : Half) (c : Nat) :
    copyBit ((otpPulse o (k, f, i, c)).get k) f i c = true := by
  induction k <;> exact copyBit_burn lt _ c

theorem copyBit_of_mem {f : OtpFld} {i c : Nat} {k : Half} (lt : i < width f) {ps : List (Half × OtpFld × Nat × Nat)}
    (mem : (k, f, i, c) ∈ ps) (o : Pair OtpRow) : copyBit ((ps.foldl otpPulse o).get k) f i c = true := by
  induction ps generalizing o with
  | nil => exact absurd mem List.not_mem_nil
  | cons p ps ih =>
    refine (List.mem_cons.mp mem).elim (fun same => ?_) fun rest => ih rest _
    exact copyBit_mono (rowsProgrammed_pulses ps _ k) (same ▸ copyBit_pulse lt o k c)

/-- The pulses of a command in both rows. -/
def pulses (d : Dev) (bits : List (OtpFld × Nat)) : List (Half × OtpFld × Nat × Nat) := d.halves.flatMap fun k => otpPulses k bits

theorem mem_pulses {d : Dev} {k : Half} {bits : List (OtpFld × Nat)} {f : OtpFld} {i c : Nat} (half : k ∈ d.halves)
    (bit : (f, i) ∈ bits) (copy : c ∈ [0, 1, 2]) : (k, f, i, c) ∈ pulses d bits :=
  List.mem_flatMap.mpr ⟨k, half, List.mem_flatMap.mpr ⟨(f, i), bit, List.mem_map.mpr ⟨c, copy, rfl⟩⟩⟩

/-- Every bit that a command names is read in every row after its pulses. -/
theorem vote_pulses {d : Dev} {k : Half} {bits : List (OtpFld × Nat)} {f : OtpFld} {i : Nat} (half : k ∈ d.halves)
    (bit : (f, i) ∈ bits) (lt : i < width f) (o : Pair OtpRow) :
    (field (((pulses d bits).foldl otpPulse o).get k) f).vote.getLsbD i = true :=
  vote_of_copies fun _x copy => copyBit_of_mem lt (mem_pulses half bit copy) o

/-! ### What a command's bits show -/

theorem le_thermo {n m : Nat} {v : BitVec n} (le : m ≤ n) (set : ∀ i, i < m → v.getLsbD i = true) : m ≤ thermo v := by
  have split : List.range n = List.range m ++ (List.range (n - m)).map (fun i => m + i) :=
    (congrArg List.range (Nat.add_sub_cancel' le).symm).trans List.range_add
  have taken := (congrArg (List.takeWhile fun i => v.getLsbD i) split).trans
    (List.takeWhile_append_of_pos fun i mem => set i (List.mem_range.mp mem))
  have count := (congrArg List.length taken).trans (List.length_append.trans (congrArg (fun k => k + _) List.length_range))
  exact (Nat.le_add_right ..).trans_eq count.symm

theorem lifePattern_lt {n : Nat} (le : n ≤ 4) : lifePattern n < 2 ^ 16 :=
  (by decide : ∀ n < 5, lifePattern n < 2 ^ 16) n (Nat.lt_succ_of_le le)

/-- A pattern is read where each of its bits is. -/
theorem and_eq_of_bits {n m : Nat} (v : BitVec n) (lt : m < 2 ^ n) (set : ∀ i, i < n → m.testBit i = true → v.getLsbD i = true) :
    v.toNat &&& m = m := by
  refine Nat.eq_of_testBit_eq fun i => (Nat.testBit_and ..).trans (Bool.and_eq_right_iff_imp.mpr fun bit => set i ?_ bit)
  refine Nat.lt_of_not_le fun ge => Bool.false_ne_true ?_
  exact (Nat.testBit_lt_two_pow (lt.trans_le (Nat.pow_le_pow_right (by decide) ge))).symm.trans bit

/-! ### The command written and run -/

section
variable {org : Origin} {h : Half} {arg op : Nat} {s : State}

/-- The word of a command. -/
def word (op arg : Nat) : Nat := arg * 256 + op

theorem word_op (lt : op < 16) : word op arg % 16 = op := by
  have low : word op arg % 256 = op := Nat.mul_add_mod_of_lt (lt.trans (by decide))
  exact (Nat.mod_mod_of_dvd _ (by decide)).symm.trans ((congrArg (fun v => v % 16) low).trans (Nat.mod_eq_of_lt lt))

theorem word_arg (lt : op < 16) (small : arg < 256) : bitsOf (word op arg) 15 8 = arg := by
  have none_ : op / 256 = 0 := Nat.div_eq_of_lt (lt.trans (by decide))
  have above : word op arg / 256 = arg := (congrArg (fun v => v / 256) (Nat.add_comm ..)).trans
    ((Nat.add_mul_div_right op arg (by decide)).trans ((congrArg (fun v => v + arg) none_).trans (Nat.zero_add arg)))
  exact (congrArg (fun v => v % 256) above).trans (Nat.mod_eq_of_lt small)

/-- A device with a good command of `OTPC` in hand. -/
def ready (d : Dev) (h : Half) (op arg : Nat) : Dev := { d.otpcStatus 1 with otpc := some (h, op, arg) }

/-- A device that shows a running command of `OTPC` and has none in hand. -/
def running (d : Dev) : Dev := { d.otpcStatus 1 with otpc := none }

/-- The device with a command of `OTPC` written and judged good, its pulses to be made. -/
def started (s : State) (org : Origin) (h : Half) (op arg : Nat) : Dev := running (s.dev.entry org h pgOTPC 0x058 (word op arg))

theorem halves_started : (started s org h op arg).halves = s.dev.halves := by
  have shown : beyond ((s.dev.entry org h pgOTPC 0x058 (word op arg)).otpcStatus 1) = beyond (s.dev.entry org h pgOTPC 0x058 (word op arg)) :=
    beyond_eachHalf (fun _x _y => beyond_setReg ..) _
  exact (halves_eq shown).trans (halves_entry ..)

section
variable (small : arg < 256) (lt : op < 16) (takes : s.dev.takes org h pgOTPC 0x058 = true)
include small lt takes

omit takes in
theorem otpcCmd_word (otp : Pair OtpRow) (d : Dev) : Dev.otpcCmd otp h (word op arg) d =
    if d.otpcJudge (otp.get h) h op arg != 0 then none else some (ready d h op arg) := by
  show (if d.otpcJudge (otp.get h) h (word op arg % 16) (bitsOf (word op arg) 15 8) != 0 then none
    else some (ready d h (word op arg % 16) (bitsOf (word op arg) 15 8))) = _
  rw [word_op lt, word_arg lt small]

omit lt takes in
/-- A command is written, and what it leaves in hand is run. -/
theorem otpcWrite_runs {d : Dev} (fail : Option Nat) (wrote : s.dev.command org h pgOTPC 0x058 (word op arg)
      (Dev.otpcCmd s.otp h (word op arg)) false true (Dev.otpcNo s.otp h (word op arg)) = d) :
    otpcWrite org h op arg fail s = .next (otpRun fail { s with dev := d }) := by
  subst wrote
  rw [otpcWrite, Nat.mod_eq_of_lt small]
  rfl

/-- A command that R293 and R297 allow is run. -/
theorem otpcWrite_allowed (may : (s.dev.entry org h pgOTPC 0x058 (word op arg)).otpcJudge (s.otp.get h) h op arg = 0)
    (fail : Option Nat) : otpcWrite org h op arg fail s =
      .next (otpRun fail { s with dev := ready (s.dev.entry org h pgOTPC 0x058 (word op arg)) h op arg }) :=
  otpcWrite_runs small fail (FlashLog.command_of_act takes ((otpcCmd_word small lt s.otp _).trans (if_neg (by rw [may]; decide))))

omit small lt takes in
/-- A pulse that does not take ends it FAILED (5) with the pulses before it made. -/
theorem otpRun_fails {d : Dev} {j : Nat} (lt : j < (pulses (running d) ((running d).otpcBits h op arg)).length) :
    otpRun (some j) { s with dev := ready d h op arg } = { s with
      otp := ((pulses (running d) ((running d).otpcBits h op arg)).take j).foldl otpPulse s.otp
      dev := ((running d).otpcStatus 5).raise h pgOTPC .otpcCmdDone } :=
  congrArg (fun bad : Bool => ({ s with
    otp := (if bad then (pulses (running d) ((running d).otpcBits h op arg)).take j else pulses (running d) _).foldl otpPulse s.otp
    dev := ((running d).otpcStatus (if bad then 5 else 2)).raise h pgOTPC .otpcCmdDone } : State)) (decide_eq_true lt)

/-- One that they do not allow changes no fuse, and its status says why. -/
theorem otpcWrite_refused (idle : s.dev.otpc = none)
    (no : (s.dev.entry org h pgOTPC 0x058 (word op arg)).otpcJudge (s.otp.get h) h op arg ≠ 0) (fail : Option Nat) :
    otpcWrite org h op arg fail s = .next { s with
      dev := Dev.otpcNo s.otp h (word op arg) (s.dev.refusal org h pgOTPC 0x058 (word op arg)) } := by
  have act := (otpcCmd_word small lt s.otp (s.dev.entry org h pgOTPC 0x058 (word op arg))).trans (if_pos (bne_iff_ne.mpr no))
  rw [otpcWrite_runs small fail (FlashLog.command_of_no_act takes act), otpRun_idle]
  exact (otpc_eq (beyond_eachHalf (fun _x _y => beyond_setReg ..) _)).trans ((otpc_refusal ..).trans idle)

end
end

/-! ### The four commands -/

/-- A judgement of 0 says that the device is whole and the command's own rule is met. -/
theorem rule_of_judge {whole : Prop} [dec : Decidable whole] {rule : Bool} (j : (if whole then 4 else if !rule then 3 else 0) = 0) :
    rule = true := by
  induction rule with
  | false => exact absurd j (ite_holds (P := fun k => k ≠ 0) (by decide) (by decide))
  | true => rfl

/-- Every bit that a command names is read in a row. -/
def BitsRead (d : Dev) (h : Half) (op arg : Nat) (o : OtpRow) : Prop :=
  ∀ f i, (f, i) ∈ d.otpcBits h op arg → i < width f → (field o f).vote.getLsbD i = true

section
variable {d e : Dev} {o p : OtpRow} {h : Half} {arg : Nat}

theorem svn_of_bits (may : d.otpcJudge o h 1 arg = 0) (bits : BitsRead e h 1 arg p) : arg ≤ p.svnOf := by
  have le : arg ≤ 64 := of_decide_eq_true (Bool.and_elim_right (Bool.and_elim_left (rule_of_judge may)))
  exact le_thermo le fun i lt => bits .svn i (List.mem_map.mpr ⟨i, List.mem_range.mpr lt, rfl⟩) (lt.trans_le le)

theorem signer_of_bits (may : d.otpcJudge o h 2 arg = 0) (bits : BitsRead e h 2 arg p) : p.revoke.vote.getLsbD arg = true := by
  have lt : arg < 2 := of_decide_eq_true (Bool.and_elim_left (Bool.and_elim_left (rule_of_judge may)))
  exact bits .revoke arg (List.mem_singleton.mpr rfl) (lt.trans (by decide))

theorem life_of_bits (may : d.otpcJudge o h 3 arg = 0) (bits : BitsRead e h 3 arg p) :
    p.lifecycle.vote.toNat &&& lifePattern arg = lifePattern arg := by
  have le : arg ≤ 4 := of_decide_eq_true (Bool.and_elim_left (Bool.and_elim_left (rule_of_judge may)))
  exact and_eq_of_bits _ (lifePattern_lt le) fun i lt set =>
    bits .life i (List.mem_map.mpr ⟨i, List.mem_filter.mpr ⟨List.mem_range.mpr lt, set⟩, rfl⟩) lt

theorem lock_of_bits (may : d.otpcJudge o h 4 arg = 0) (bits : BitsRead e h 4 arg p) : p.strapLock.vote.getLsbD arg = true := by
  have lt : arg < 7 := of_decide_eq_true (Bool.and_elim_left (Bool.and_elim_left (rule_of_judge may)))
  exact bits .strapLock arg (List.mem_append_right _ (List.mem_singleton.mpr rfl)) (lt.trans (by decide))

end

section
variable {org : Origin} {h : Half} {arg op : Nat} {s : State} (small : arg < 256) (lt : op < 16)
  (takes : s.dev.takes org h pgOTPC 0x058 = true) (may : (s.dev.entry org h pgOTPC 0x058 (word op arg)).otpcJudge (s.otp.get h) h op arg = 0)
include small lt takes may

/-- A command that is allowed shows DONE (2), and each row reads the bits that it names and keeps its write-once fields. -/
theorem otpcWrite_done : ∃ t, otpcWrite org h op arg none s = .next t ∧ t.pending = s.pending ∧
    t.dev = ((started s org h op arg).otpcStatus 2).raise h pgOTPC .otpcCmdDone ∧
    ∀ k ∈ s.dev.halves, BitsRead (started s org h op arg) h op arg (t.otp.get k) ∧
      (t.otp.get k).onceBytes = (s.otp.get k).onceBytes ∧ (t.otp.get k).repair = (s.otp.get k).repair := by
  refine ⟨_, otpcWrite_allowed small lt takes may none, rfl, rfl, fun k mem => ?_⟩
  have grows := rowsProgrammed_pulses (pulses (started s org h op arg) ((started s org h op arg).otpcBits h op arg)) s.otp k
  have half : k ∈ (started s org h op arg).halves := by rwa [halves_started]
  exact ⟨fun f i bit wide => vote_pulses half bit wide s.otp, grows.once, grows.repair⟩

/-- One of its pulses does not take. -/
theorem otpcWrite_fails {j : Nat}
    (at_ : j < (pulses (started s org h op arg) ((started s org h op arg).otpcBits h op arg)).length) :
    otpcWrite org h op arg (some j) s = .next { s with
      otp := ((pulses (started s org h op arg) ((started s org h op arg).otpcBits h op arg)).take j).foldl otpPulse s.otp
      dev := ((started s org h op arg).otpcStatus 5).raise h pgOTPC .otpcCmdDone } :=
  (otpcWrite_allowed small lt takes may _).trans (congrArg _ (otpRun_fails at_))

end

/-- Settles O40: the pulses of a command that is allowed set its bits in every copy of every row. -/
theorem otpCommands : Obligations.OtpCommands := by
  intro org h arg s small idle takes e may runs
  have of_bits {c : Option Nat → Instr} {op : Nat} {done : OtpRow → Prop} (lt : op < 16)
      (row : ∀ f, exec (c f) s = otpcWrite org h op arg f s)
      (shows : may op → ∀ o : OtpRow, BitsRead (started s org h op arg) h op arg o → done o) : runs c op done := by
    refine ⟨fun ok => ?done, fun ok j hj => (row (some j)).trans (otpcWrite_fails small lt takes ok hj),
      fun no f => (row f).trans (otpcWrite_refused small lt takes idle no f)⟩
    obtain ⟨t, run, queue, dev, each⟩ := otpcWrite_done small lt takes ok
    exact ⟨t, (row none).trans run, queue, dev, fun k mem => (each k mem).imp_left (shows ok _)⟩
  exact ⟨of_bits (by decide) (fun _f => rfl) fun ok _o => svn_of_bits ok, of_bits (by decide) (fun _f => rfl) fun ok _o => signer_of_bits ok,
    of_bits (by decide) (fun _f => rfl) fun ok _o => life_of_bits ok, of_bits (by decide) (fun _f => rfl) fun ok _o => lock_of_bits ok⟩

end Sys2Proof.Machine.OtpProof
end

section
/-! PROOFS. The boot ROM, measurements and firmware (R282, R288 to R294, R298). -/

namespace Sys2Proof.Machine.BootProof
open Fuses BeyondRegisters

/-! ### Register commands that are not journaled (R354) -/

section
variable {d x : Dev} {org : Origin} {h : Half} {page off v : Nat} {act : Dev → Option Dev} {no : Dev → Dev}

theorem command_free_of_act (k : d.takes org h page off false = true) (a : act (d.wake h (pageIsland page)) = some x) :
    d.command org h page off v act false false no = x := by
  rw [command_takes_free v act false no k, a]

theorem command_free_of_no_act (k : d.takes org h page off false = true) (a : act (d.wake h (pageIsland page)) = none) :
    d.command org h page off v act false false no = no (d.wake h (pageIsland page)) := by
  rw [command_takes_free v act false no k, a]

end

/-! ### `MEAS_SEL` (R298) -/

theorem measSel_eq {i : Nat} (lt : i < 8) (h : Half) (d : Dev) : Dev.measSel h i d =
    if i = 0 ∨ 6 < i then none else some (d.setWords h pgBOOT 0x060 16 (((d.half h).boot.meas.getD (i - 1) 0).toNat)) := by
  rw [Dev.measSel, Nat.mod_eq_of_lt lt]

theorem measurementSelector : Claim.MeasurementSelector := by
  intro org h i s lt takes d
  have runs {x : Dev} (c : s.dev.command org h pgBOOT 0x050 (i % 8) (Dev.measSel h i) false false = x) :
      Runs (.bootMeasSel org h i) s x := next_eq c
  refine ⟨fun inRange => runs (command_free_of_act takes ?_), fun out => runs (command_free_of_no_act takes ?_)⟩
  · exact (measSel_eq lt h d).trans (if_neg (not_or.mpr ⟨Nat.ne_of_gt inRange.1, Nat.not_lt.mpr inRange.2⟩))
  · exact (measSel_eq lt h d).trans (if_pos (out.imp_right fun seven => by rw [seven]; decide))

/-! ### The ROM (R288, R290, R291) -/

theorem single_romStart (s : State) (h : Half) : (romStart s h).single = s.dev.single := single_upd _ _ rfl

theorem fordUp_romStart (s : State) (h k : Half) : (romStart s h).fordUp k = s.dev.fordUp k := by
  induction h <;> induction k <;> rfl

/-- The boot of a half after the checks of its row: East's waits for the Ford (6). -/
def romGoes (d : Dev) (otp : Pair OtpRow) (us : Nat) : Half → Dev
  | .west => d.bootWest otp us
  | .east => if d.fordUp .east then d.bootEast otp us else d.romHalt .east 6

theorem romLives_goes {h : Half} {otp : Pair OtpRow} (lives : ¬((otp.get h).life = 0 ∨ (otp.get h).life = 4)) (us : Nat) (d : Dev)
    (s : State) : romLives h us otp d s = .next { s with otp := otp, dev := romGoes d otp us h } := by
  refine eq_else rfl lives |>.trans ?_
  clear lives
  induction h <;> rfl

theorem eachHalf_fix {f : Dev → Half → Dev} {d : Dev} (fix : ∀ k, f d k = d) : d.eachHalf f = d := by
  unfold Dev.eachHalf
  induction d.halves with
  | nil => rfl
  | cons k l ih => rw [List.foldl_cons, fix, ih]

section
variable {h : Half} {us : Nat} {s : State}

theorem romBoot_waits (no : s.dev.romMay h = false) : Runs (.romBoot h us) s s.dev :=
  eq_then (romBoot_eq h us s) (by rw [no]; rfl)

theorem romBoot_badRow (may : s.dev.romMay h = true) (bad : (s.otp.get h).crcOk = false) :
    Runs (.romBoot h us) s ((romStart s h).romHalt h 1) :=
  eq_then (eq_else (romBoot_eq h us s) (not_not may)) (by rw [bad]; rfl)

/-- Past the checks of its row, with nothing to exchange, the ROM goes by the lifecycle. -/
theorem romBoot_checked (may : s.dev.romMay h = true) (good : (s.otp.get h).crcOk = true)
    (agree : (!s.dev.single && s.dev.fordUp h) = true → s.otp.west.sameOnce s.otp.east = true ∧ otpExchange s.otp = s.otp) :
    exec (.romBoot h us) s = romLives h us s.otp (romStart s h) s := by
  have rows : (if (!s.dev.single && s.dev.fordUp h) = true then otpExchange s.otp else s.otp) = s.otp := by
    split
    · exact (agree ‹_›).2
    · rfl
  have same : ¬((!s.dev.single && s.dev.fordUp h) && !(s.otp.west.sameOnce s.otp.east)) = true := fun b =>
    not_not (agree (Bool.and_elim_left b)).1 (Bool.and_elim_right b)
  refine (eq_else (eq_else (eq_else (romBoot_eq h us s) (not_not may)) (not_not good)) same).trans ?_
  rw [rows]
  exact congrArg (romLives h us s.otp · s) (eachHalf_fix fun _x => if_pos rfl)

section
variable (may : s.dev.romMay h = true) (good : (s.otp.get h).crcOk = true)
  (agree : (!s.dev.single && s.dev.fordUp h) = true → s.otp.west.sameOnce s.otp.east = true ∧ otpExchange s.otp = s.otp)
include may good agree

theorem romBoot_dead (dead : (s.otp.get h).life = 0 ∨ (s.otp.get h).life = 4) :
    Runs (.romBoot h us) s ((romStart s h).romHalt h 3) := eq_then (romBoot_checked may good agree) dead

theorem romBoot_goes (blank : (s.otp.get h).life ≠ 0) (scrap : (s.otp.get h).life ≠ 4) :
    Runs (.romBoot h us) s (romGoes (romStart s h) s.otp us h) := by
  exact (romBoot_checked may good agree).trans (romLives_goes (not_or.mpr ⟨blank, scrap⟩) _ _ s)

end
end

/-- The boot of West from the slots: what is wrong with each, and the one chosen. -/
def slotBoots (otp : Pair OtpRow) (us : Nat) (e : Dev) (r : Nat × Nat × Option (Nat × Image)) : Dev :=
  match r.2.2 with
  | none => (e.setReg .west pgBOOT 0x040 (r.2.1 * 4096 + r.1 * 256)).romHalt .west 4
  | some (slot, img) => e.fwStart .west otp img slot (r.2.1 * 16 + r.1) us false

theorem slotBoots_eq (otp : Pair OtpRow) (us : Nat) (e : Dev) (r : Nat × Nat × Option (Nat × Image)) :
    slotBoots otp us e r = (r.2.2.map fun x => e.fwStart .west otp x.2 x.1 (r.2.1 * 16 + r.1) us false).getD
      ((e.setReg .west pgBOOT 0x040 (r.2.1 * 4096 + r.1 * 256)).romHalt .west 4) := by
  rcases r with ⟨_, _, _ | _⟩ <;> rfl

/-- The boot of West, once the halves are together or split. -/
def westBoots (otp : Pair OtpRow) (us : Nat) (d : Dev) : Dev :=
  let r := chooseSlot otp.west d.flash.slotA d.flash.slotB
  if bitsOf d.west.strap.eff.toNat 1 0 = 3 then d.romHalt .west 4 else slotBoots otp us (d.slotFails r.1 r.2.1) r

theorem bootWest_eq (d : Dev) (otp : Pair OtpRow) (us : Nat) :
    d.bootWest otp us = westBoots otp us (if d.single || d.fordUp .west then d else { d with split := true }) := rfl

/-- The ROM of a device with one half does not wait for a Ford. -/
theorem bootWest_single {d : Dev} (single : d.single = true) (otp : Pair OtpRow) (us : Nat) :
    d.bootWest otp us = westBoots otp us d :=
  (bootWest_eq d otp us).trans (congrArg (westBoots otp us) (if_pos (by rw [single]; rfl)))

/-- East checks the image that West runs, and runs it or halts (5). -/
theorem bootEast_of_image {d : Dev} {img : Image} (run : d.west.boot.image = some img) (otp : Pair OtpRow) (us : Nat) :
    let w := d.west.boot
    let c := img.check otp.east
    d.bootEast otp us =
      if c = 0 then d.fwStart .east otp img w.slot (if w.slot = 0 then 7 * 16 else 7) us w.recovery
      else (((d.raise .east pgBOOT .bootSlotFail).setReg .east pgBOOT 0x040
        (if w.slot = 0 then 7 * 4096 + c * 256 else c * 4096 + 7 * 256)).romHalt .east 5).upd .east fun x =>
          { x with mgmt := { x.mgmt with lost := true } } := by
  simp only [Dev.bootEast, run]

theorem romBoots : Claim.RomBoots := by
  intro us s start
  refine ⟨fun h => romBoot_waits, fun h => romBoot_badRow, fun may single good => ?west, fun may two up good same whole blank scrap img run => ?east⟩
  case west =>
    have alone : (!s.dev.single && s.dev.fordUp .west) = true → s.otp.west.sameOnce s.otp.east = true ∧ otpExchange s.otp = s.otp := by
      simp only [single, Bool.not_true, Bool.false_and, Bool.false_eq_true, false_implies]
    refine ⟨romBoot_dead (h := .west) may good alone, fun blank scrap source => ?_⟩
    have go := romBoot_goes (h := .west) (us := us) may good alone blank scrap
    rw [romGoes, bootWest_single ((single_romStart s .west).trans single)] at go
    refine go.trans (next_eq ((if_neg source).trans ((slotBoots_eq ..).trans ?_)))
    rw [romStart, upd_flash]
  case east =>
    have go := romBoot_goes (h := .east) (us := us) may good (fun _x => ⟨same, whole⟩) blank scrap
    rw [romGoes, fordUp_romStart, if_pos up, bootEast_of_image (d := romStart s .east) run] at go
    exact go

/-! ### Recovery and update (R290, R292) -/

theorem single_certCheck (d : Dev) (h : Half) : (d.certCheck h).single = d.single :=
  ite_keeps (single_upd d h rfl) ((single_raise ..).trans (single_upd d h rfl))

theorem single_measAll (d : Dev) (otp : Pair OtpRow) : (d.measAll otp).single = d.single :=
  single_eachHalf (fun d h => single_upd d h (by split <;> rfl)) d

/-- Firmware that starts leaves the Ford as it was. -/
theorem single_fwStart (d : Dev) (h : Half) (otp : Pair OtpRow) (img : Image) (slot status us : Nat) (recovery : Bool) :
    (d.fwStart h otp img slot status us recovery).single = d.single := by
  refine (ite_keeps (part := Dev.single) (single_raise ..) rfl).trans <| (single_measAll ..).trans <| (single_certCheck ..).trans <|
    (single_setWords ..).trans <| (single_setWords ..).trans <| (single_setReg ..).trans <| (single_setReg ..).trans <|
    (single_setReg ..).trans <| (single_setReg ..).trans <| (single_setReg ..).trans <| single_upd (d.free 640).2 h rfl

section
variable {s : State}

/-- A recovery image that fails R288, or that no half waits for, changes nothing. -/
theorem recoveryBoot_stays {img : Image} {us : Nat} (no : s.dev.west.boot.halt ≠ 4 ∨ img.check s.otp.west ≠ 0) :
    Runs (.recoveryBoot img us) s s.dev := by
  refine runs_then rfl ?_
  rwa [Bool.or_eq_true, bne_iff_ne, bne_iff_ne]

/-- One that passes runs in the one half there is. -/
theorem recoveryBoot_runs {img : Image} {us : Nat} (waits : s.dev.west.boot.halt = 4) (passes : img.check s.otp.west = 0)
    (single : s.dev.single = true) :
    Runs (.recoveryBoot img us) s
      (s.dev.fwStart .west s.otp img s.dev.west.boot.slot (bitsOf (s.dev.reg .west pgBOOT 0x040).toNat 15 8) us true) := by
  have go : ¬(s.dev.west.boot.halt != 4 || img.check s.otp.west != 0) = true := by rw [waits, passes]; decide
  refine runs_else (runs_else rfl go) fun both => not_not ?_ both.2.2
  exact (single_fwStart ..).trans single

/-- The slots once the one that did not boot takes what is written. -/
def putSlot (d : Dev) (x : Option Image) : Dev := { d with flash :=
  if d.west.boot.slot = 0 ∧ d.west.boot.recovery = false then { d.flash with slotB := x } else { d.flash with slotA := x } }

theorem putSlot_eq (d : Dev) (x : Option Image) : ({ d with flash :=
    if d.west.boot.slot == 0 && !d.west.boot.recovery then { d.flash with slotB := x } else { d.flash with slotA := x } } : Dev) =
      putSlot d x := by
  have same : (d.west.boot.slot == 0 && !d.west.boot.recovery) = true ↔ d.west.boot.slot = 0 ∧ d.west.boot.recovery = false := by
    rw [Bool.and_eq_true, beq_iff_eq, Bool.not_eq_true']
  exact congrArg (fun f => { d with flash := f }) (if_congr same rfl rfl)

theorem transferFw_runs {img : Image} (running : s.dev.west.boot.running = true) (source : bitsOf s.dev.west.strap.eff.toNat 1 0 ≠ 3) :
    Runs (.transferFw img) s (
      if img.check14 s.otp.west ≠ 0 ∨ img.check5 ≠ 0 then s.dev.emit (.fmResponse 0x0201 0xA [])
      else if img.check6 ≠ 0 then (putSlot s.dev (some { img with header := [] })).emit (.fmResponse 0x0201 0xA [])
      else (putSlot s.dev (some img)).emit (.fmResponse 0x0201 0 [])) := by
  have takes : ¬(!s.dev.west.boot.running || bitsOf s.dev.west.strap.eff.toNat 1 0 == 3) = true := by
    rw [running, beq_eq_false_iff_ne.mpr source]
    decide
  have header : ((if img.check14 s.otp.west != 0 then img.check14 s.otp.west else img.check5) != 0) = true ↔
      img.check14 s.otp.west ≠ 0 ∨ img.check5 ≠ 0 := by
    by_cases c : img.check14 s.otp.west = 0 <;> simp [c]
  have header_ := runs_else (i := .transferFw img) rfl takes
  split
  · exact runs_then header_ (header.mpr ‹_›)
  · refine (runs_else header_ (mt header.mp ‹_›)).trans (next_eq ((congrArg (Dev.emit · _) (putSlot_eq ..)).trans ?_))
    by_cases body : img.check6 = 0
    · rw [if_neg (not_not_intro body), body]
      rfl
    · rw [if_pos body, beq_eq_false_iff_ne.mpr body]
      rfl

end

theorem firmwareUpdates : Claim.FirmwareUpdates := by
  intro s d w
  refine ⟨fun img us waits single _x => ⟨bitsOf (s.dev.reg .west pgBOOT 0x040).toNat 15 8, ?recovery⟩,
    fun img us no => recoveryBoot_stays (.inl no), fun img running source => transferFw_runs running source,
    fun running => ⟨?offline, ?online⟩⟩
  case recovery =>
    split
    · exact recoveryBoot_runs waits ‹_› single
    · exact recoveryBoot_stays (.inr ‹_›)
  · exact runs_else rfl (not_not running)
  · exact runs_else rfl (not_not running)

/-- Settles O41: the selector by its act, the ROM by the checks it passes, recovery and update by those of the image. -/
theorem bootAndFirmware : Obligations.BootAndFirmware := ⟨measurementSelector, romBoots, firmwareUpdates⟩

end Sys2Proof.Machine.BootProof
end

section
/-! PROOFS. The SPDM responder (R295, R296): how a request reaches it, what the opening requests set, and what each request of a finished
negotiation answers. -/

namespace Sys2Proof.Machine.SpdmProof
open BeyondRegisters

/-! ### A request reaches the responder -/

theorem find?_map_of_keeps {α : Type} {p : α → Bool} {g : α → α} (keeps : ∀ y, p (g y) = p y) (l : List α) :
    (l.map g).find? p = (l.find? p).map g := by
  rw [List.find?_map, show p ∘ g = p from funext keeps]

/-- A requester's state changed by what keeps its number. -/
theorem spdmOf_updSpdm {d : Dev} {r : Nat} {x : Spdm} {f : Spdm → Spdm} (q : ∀ y, (f y).requester = y.requester)
    (own : d.spdmOf r = some x) : (d.updSpdm r f).spdmOf r = some (f x) := by
  have owner : x.requester = r := beq_iff_eq.mp (List.find?_some (p := fun y : Spdm => y.requester == r) own)
  have keeps (y : Spdm) : ((if y.requester = r then f y else y).requester == r) = (y.requester == r) :=
    ite_keeps (part := fun y : Spdm => y.requester == r) (congrArg (· == r) (q y)) rfl
  exact (find?_map_of_keeps keeps d.spdm).trans ((congrArg (Option.map _) own).trans (congrArg some (if_pos owner)))

/-- The responder of a requester's half answers. -/
def Live (d : Dev) (r : Nat) : Prop :=
  (((d.half (d.spdmHalf r)).boot.running && !(d.mgmtLost (d.spdmHalf r))) || d.served (d.spdmHalf r)) = true

/-- The device as a request finds it: the time of its use noted. -/
def used (d : Dev) (r : Nat) : Dev := d.updSpdm r fun x => { x with lastUse := d.uptime }

/-- A request of a requester that the responder knows, or may not know. -/
def answered (r : Nat) (f : Dev → Spdm → Dev) (d : Dev) : Dev := match d.spdmOf r with
  | none => d.spdmError r 3
  | some x => f (used d r) x

section
variable {d : Dev} {r : Nat} {x : Spdm} (own : d.spdmOf r = some x) (live : Live d r)
include own live

theorem spdmReq_own (f : Dev → Spdm → Dev) : d.spdmReq r f = f (used d r) x := by
  have known : ¬((d.spdmOf r).isNone && decide (d.spdm.length < 16)) = true := by
    rw [own]
    exact Bool.false_ne_true
  refine (eq_else (b := answered r f (if _ then _ else d)) rfl (not_not live)).trans ((congrArg (answered r f) (if_neg known)).trans ?_)
  rw [answered, own]

end

section
variable {i : Instr} {r : Nat} {s : State} {x : Spdm} {e : Dev} (own : s.dev.spdmOf r = some x) (live : Live s.dev r)
include own live

/-- A request runs by its meaning. -/
theorem request_runs {f : Dev → Spdm → Dev} (means : exec i s = .next { s with dev := s.dev.spdmReq r f })
    (answers : f (used s.dev r) x = e) : Runs i s e := means.trans (next_eq ((spdmReq_own own live f).trans answers))

/-- A request that needs a finished negotiation runs by its meaning after one. -/
theorem negotiated_runs (algs : x.algs = true) {f : Dev → Dev} (means : exec i s = .next { s with dev := s.dev.spdmReady r f })
    (answers : f (used s.dev r) = e) : Runs i s e := request_runs own live means ((if_pos algs).trans answers)

end

/-! ### Opening requests (R295, R296) -/

section
variable {r : Nat} {s : State} {x : Spdm} (own : s.dev.spdmOf r = some x) (live : Live s.dev r)
include own live

theorem negotiateAlgorithms_runs {asym hash : Nat} (caps : x.caps = true) : Runs (.negotiateAlgorithms r asym hash) s
    (if !(asym.testBit 8) || !(hash.testBit 2) then (used s.dev r).spdmError r 1
    else ((used s.dev r).updSpdm r fun x => { x with algs := true }).spdmSend r 0x63 (1 :: leBytes 4 8 ++ leBytes 4 256 ++ leBytes 4 4)) :=
  request_runs own live rfl (if_neg (not_not caps))

end

theorem spdmOpening : Claim.SpdmOpening := by
  intro r s x own live d
  refine ⟨request_runs own live rfl rfl, fun versioned => request_runs own live rfl (if_neg (not_not versioned)),
    fun early => request_runs own live rfl (if_pos (by rw [early]; rfl)), fun asym hash caps => ⟨fun a h => ?offered, fun a => ?missing⟩,
    request_runs own live rfl rfl, rfl⟩
  case offered => exact runs_else (negotiateAlgorithms_runs own live caps) (by rw [a, h]; decide)
  case missing => exact runs_then (negotiateAlgorithms_runs own live caps) (by rw [a]; rfl)

/-! ### Requests after negotiation -/

theorem length_leBytes (n v : Nat) : (leBytes n v).length = n := by simp only [leBytes, List.length_map, List.length_range]

/-- A signature has 132 bytes. -/
theorem length_spdmSign (d : Dev) (h : Half) : (d.spdmSign h).1.length = 132 := by
  simp [Dev.spdmSign, ecdsaSign, toBe, toLe]

/-- A measurement block has 71 bytes. -/
theorem length_measBlock (d : Dev) (h : Half) (i : Nat) : (d.measBlock h i).length = 71 := by
  simp only [Dev.measBlock, Dev.measBytes, List.length_append, length_leBytes, List.length_cons, List.length_nil]

section
variable {r : Nat} {s : State} {x : Spdm} (own : s.dev.spdmOf r = some x) (live : Live s.dev r)
include own live

variable (algs : x.algs = true)
include algs

theorem getCertificate_runs {slot off : Nat} (len : Nat) {c : List Byte} (chain : (used s.dev r).chain (s.dev.spdmHalf r) slot = some c)
    (lt : off < c.length) :
    let p := (c.drop off).take len
    Runs (.getCertificate r slot off len) s ((used s.dev r).spdmSend r 0x02
      (BitVec.ofNat 8 slot :: leBytes 2 p.length ++ leBytes 2 (c.length - off - p.length) ++ p)) := by
  refine negotiated_runs own live algs rfl ?_
  simp only [show (used s.dev r).chain ((used s.dev r).spdmHalf r) slot = some c from chain]
  exact if_neg (Nat.not_le.mpr lt)

theorem getCertificate_none {slot : Nat} (off len : Nat) (chain : (used s.dev r).chain (s.dev.spdmHalf r) slot = none) :
    Runs (.getCertificate r slot off len) s ((used s.dev r).spdmError r 1) := by
  refine negotiated_runs own live algs rfl ?_
  simp only [show (used s.dev r).chain ((used s.dev r).spdmHalf r) slot = none from chain]

theorem challenge_runs {slot : Nat} {c : List Byte} (chain : (used s.dev r).chain (s.dev.spdmHalf r) slot = some c) :
    let n := (used s.dev r).free 256
    let g := n.2.spdmSign (s.dev.spdmHalf r)
    Runs (.challenge r slot false) s (g.2.spdmSend r 0x03 (chainDigest c ++ leBytes 32 n.1.toNat ++ [] ++ [0, 0] ++ g.1)) := by
  refine negotiated_runs own live algs rfl ?_
  simp only [show (used s.dev r).chain ((used s.dev r).spdmHalf r) slot = some c from chain]
  rfl

omit own live algs in
/-- The answer with measurements, unsigned. -/
def measured (d : Dev) (r count : Nat) (body : List Byte) : Dev :=
  (d.free 256).2.spdmSend r 0x60 (BitVec.ofNat 8 count :: leBytes 3 body.length ++ body ++ leBytes 32 (d.free 256).1.toNat ++ [0, 0] ++ [])

theorem getMeasurements_one {i : Nat} (lo : 1 ≤ i) (hi : i ≤ 6) :
    Runs (.getMeasurements r i false) s (measured (used s.dev r) r 1 ((used s.dev r).measBlock (s.dev.spdmHalf r) i)) := by
  have inRange : ¬(i != 0xFF && decide (6 < i)) = true := fun b => Nat.not_lt.mpr hi (of_decide_eq_true (Bool.and_elim_right b))
  have notAll : i ≠ 0xFF := fun all => Nat.not_lt.mpr hi (by rw [all]; decide)
  have one : (if i = 0 then [] else if i = 0xFF then [1, 2, 3, 4, 5, 6] else [i]) = [i] := (if_neg (Nat.ne_of_gt lo)).trans (if_neg notAll)
  have count : (if i = 0 then 6 else (if i = 0 then [] else if i = 0xFF then [1, 2, 3, 4, 5, 6] else [i]).length) = 1 :=
    (if_neg (Nat.ne_of_gt lo)).trans (congrArg List.length one)
  refine negotiated_runs own live algs rfl ((eq_else (b := measured (used s.dev r) r _ _) rfl inRange).trans ?_)
  rw [count, one]
  exact congrArg _ (List.append_nil _)

/-- The operator's chain is taken in slot 1, in PRODUCTION, with the identity key in its leaf. -/
theorem setCertificate_runs (slot : Nat) (chain : List Byte) :
    let h := s.dev.spdmHalf r
    Runs (.setCertificate r slot chain) s (
      if slot != 1 || (s.otp.get h).life != 2 || decide (0x8000 < chain.length) || !(Config.certOk chain) ||
          Config.certLeafKey chain != ecPub ((((used s.dev r).half h).boot.keys.map (·.identity)).getD 1) then (used s.dev r).spdmError r 1
      else ({ used s.dev r with flash := { (used s.dev r).flash with cert1 := chain } } : Dev).spdmSend r 0x6E [1]) :=
  negotiated_runs own live algs rfl rfl

omit own live algs in
/-- What is wrong with a chain for slot 1. -/
theorem certBad_iff {α : Type} [BEq α] [LawfulBEq α] {life n : Nat} {ok : Bool} {key leaf : α} :
    (life != 2 || decide (0x8000 < n) || !ok || leaf != key) = true ↔ ¬(life = 2 ∧ n ≤ 0x8000 ∧ ok = true ∧ leaf = key) := by
  rw [Bool.or_eq_true, Bool.or_eq_true, Bool.or_eq_true, bne_iff_ne, bne_iff_ne, decide_eq_true_iff, Bool.not_eq_true', ← Nat.not_le,
    ← Bool.not_eq_true, not_and_or, not_and_or, not_and_or, or_assoc, or_assoc]

theorem chunkSend_more (b : List Byte) : Runs (.chunkSend r false b) s
    (((used s.dev r).updSpdm r fun y => { y with chunkIn := x.chunkIn ++ b }).spdmSend r 0x05 []) := by
  refine negotiated_runs own live algs rfl ?_
  simp only [show (used s.dev r).spdmOf r = some { x with lastUse := s.dev.uptime } from spdmOf_updSpdm (fun _x => rfl) own]
  rfl

theorem chunkGet_runs {y : Spdm} (own' : (used s.dev r).spdmOf r = some y) (some_ : y.chunkOut ≠ []) : Runs (.chunkGet r) s
    (((used s.dev r).updSpdm r fun x => { x with chunkOut := x.chunkOut.drop 1000 }).spdmSend r 0x06
      (BitVec.ofNat 8 (bnum (decide (y.chunkOut.length ≤ 1000))) :: y.chunkOut.take 1000)) := by
  refine negotiated_runs own live algs rfl ?_
  simp only [own']
  exact if_neg (mt List.isEmpty_iff.mp some_)

end

theorem spdmSessions : Claim.SpdmSessions := by
  intro r s x own live h d
  refine ⟨fun early => request_runs own live rfl (if_neg (by rw [early]; decide)),
    fun algs => ⟨negotiated_runs own live algs rfl rfl, fun slot off len c chain lt => getCertificate_runs own live algs len chain lt,
    fun slot off len chain => getCertificate_none own live algs off len chain, fun slot c chain => ?challenge,
    fun i lo hi => ?measurements, fun chain => ?operator, fun slot chain other => ?elsewhere,
    fun b => ?chunk, fun y own' out => chunkGet_runs own live algs own' out⟩⟩
  case challenge =>
    have run := challenge_runs own live algs chain
    simp only [List.append_nil] at run
    exact ⟨_, _, _, run, length_spdmSign .., rfl, rfl⟩
  case measurements =>
    have run := getMeasurements_one own live algs lo hi
    rw [measured, List.append_nil, length_measBlock] at run
    exact ⟨_, _, run, rfl, rfl⟩
  case operator => exact (setCertificate_runs own live algs 1 chain).trans (next_eq ((if_congr certBad_iff rfl rfl).trans (ite_not ..)))
  case elsewhere => exact runs_then (setCertificate_runs own live algs slot chain) (by rw [bne_iff_ne.mpr other]; rfl)
  case chunk => exact ⟨_, spdmOf_updSpdm (fun _x => rfl) own, chunkSend_more own live algs b⟩

/-- Settles O42: a requester with a state reaches its request's own meaning, and each request answers by its rule. -/
theorem attestation : Obligations.Attestation := ⟨spdmOpening, spdmSessions⟩

end Sys2Proof.Machine.SpdmProof
end

section
/-! PROOFS. Register refusals (R351, R353, R355) and journal entries. -/

namespace Sys2Proof.Machine.JournalProof
open BeyondRegisters

/-! ### Dark pages and locked pages (R351, R353) -/

section
variable {d : Dev} {org : Origin} {h : Half} {page off : Nat}

/-- The complex of the half runs, so nothing of an outside origin is dropped for want of it. -/
theorem notDropped (lost : d.mgmtLost h = false) (org : Origin) (free : Bool) :
    ¬(org.outside && d.mgmtLost h && !(d.served h) && free) = true := fun drop => by
  have down := Bool.and_elim_right (Bool.and_elim_left (Bool.and_elim_left drop))
  rw [lost] at down
  cases down

variable (lost : d.mgmtLost h = false) (reach : d.reaches org h page off = true)
include lost reach

theorem localRead_dark (dark : d.pageDark h h page = true) (otp : Pair OtpRow) :
    d.localRead otp org h h page off false =
      (d.raise h pgJRNL .darkAccess (h.num * 4096 + page)).emit (.regValue org (regAddr h page off) 0xFFFFFFFF) :=
  eq_then (eq_else (eq_else rfl (not_not reach)) (notDropped lost _ _)) dark

variable (known : (blockOf page).isSome = true)
include known

/-- The gate of a page that there is goes by whether it is dark. -/
theorem gate_known (journaled : Bool) : d.gate org h h page off journaled =
    if d.pageDark h h page then .dark
    else if org.outside && d.fld h page 0x00C 0 0 == 1 && off != 0x00C && off / 8 != 0x038 / 8 then .refuse
    else if journaled && d.jFull (d.ringHalf h) then .full
    else .pass := by
  have isPage : ¬(blockOf page).isNone = true := by rwa [Option.isNone_iff_eq_none, ← ne_eq, Option.ne_none_iff_isSome]
  exact eq_else (eq_else (eq_else rfl (not_not reach)) (notDropped lost _ _)) isPage

theorem gate_dark (dark : d.pageDark h h page = true) (journaled : Bool) : d.gate org h h page off journaled = .dark :=
  eq_then (gate_known lost reach known journaled) dark

theorem gate_locked (lit : d.pageDark h h page = false) (outside : org.outside = true)
    (lock : d.fld h page 0x00C 0 0 = 1) (ctrl : off ≠ 0x00C) (clr : off / 8 ≠ 7) (journaled : Bool) :
    d.gate org h h page off journaled = .refuse := by
  refine eq_then (eq_else (gate_known lost reach known journaled) (by rw [lit]; decide)) ?_
  rw [outside, lock, bne_iff_ne.mpr ctrl, bne_iff_ne.mpr (show off / 8 ≠ 0x038 / 8 from clr)]
  rfl

end

theorem darkPages : Claim.DarkPages := by
  intro d otp org h page off v dark lost reach e
  refine ⟨localRead_dark lost reach dark otp, fun known => ?_⟩
  simp only [Dev.localWrite, gate_dark lost reach known dark]
  rfl

theorem lockedPagesRefuse : Claim.LockedPagesRefuse := by
  intro d otp org h page off v full lit lost reach known outside lock ctrl clr
  simp only [Dev.localWrite, gate_locked lost reach known lit outside lock ctrl clr]
  rfl

/-! ### Commands inside an OPEN transaction (R351) -/

/-- A command register written inside its origin's OPEN transaction is refused, with one entry. -/
theorem command_refused_in_txn {d : Dev} {org : Origin} {h : Half} {page off i : Nat} (here : org.via h = h)
    (free : d.accBusy h org = false) (opened : d.openTxn org = some i) (pass : d.gate org h h page off true = .pass)
    (v : Nat) (act : Dev → Option Dev) (no : Dev → Dev) :
    d.command org h page off v act false true no = d.journal org h page off rREFUSED 0 (loWord v) := by
  have local_ : ¬(org.via h != h && d.fordUp (org.via h)) = true := by
    rw [here, bne_self_eq_false]
    exact Bool.false_ne_true
  have go : d.command org h page off v act false true no = d.localCommand org (org.via h) h page off v false true act no :=
    eq_else (eq_else rfl (by rw [here, free]; decide)) local_
  rw [go, here, Dev.localCommand, pass]
  exact if_pos (by rw [opened]; rfl)

theorem commandsRefusedInOpenTransaction : Claim.CommandsRefusedInOpenTransaction := by
  intro org h i s here free opened
  refine ⟨fun pass => next_eq (command_refused_in_txn here free opened pass 1 _ _), fun pass v is => ?_⟩
  subst is
  exact next_eq (command_refused_in_txn here free opened pass _ _ _)

/-- Settles O18: each refusal by what the gate answers, and a command in an OPEN transaction by the entry it leaves. -/
theorem registerRefusals : Obligations.RegisterRefusals := ⟨darkPages, lockedPagesRefuse, commandsRefusedInOpenTransaction⟩

/-! ### The layout of an entry (R355) -/

/-- A field: its width and value. -/
abbrev Field := (w : Nat) × BitVec w

/-- The word of these fields, least significant first. -/
def packed : List Field → Nat
  | [] => 0
  | f :: l => packed l * 2 ^ f.1 + f.2.toNat

/-- The bits that fields take. -/
def widths (l : List Field) : Nat := (l.map (·.1)).sum

theorem packed_lt (l : List Field) : packed l < 2 ^ widths l := by
  induction l with
  | nil => exact Nat.one_pos
  | cons f l ih =>
    calc packed l * 2 ^ f.1 + f.2.toNat < (packed l + 1) * 2 ^ f.1 := by rw [Nat.succ_mul]; exact Nat.add_lt_add_left f.2.isLt _
      _ ≤ 2 ^ widths l * 2 ^ f.1 := Nat.mul_le_mul_right _ ih
      _ = 2 ^ widths (f :: l) := by rw [widths, widths, List.map_cons, List.sum_cons, Nat.add_comm, Nat.pow_add]

theorem bitsOf_above {v k r : Nat} (lt : r < 2 ^ k) (hi lo : Nat) : bitsOf (v * 2 ^ k + r) (k + hi) (k + lo) = bitsOf v hi lo := by
  rw [bitsOf, bitsOf, Nat.pow_add, ← Nat.div_div_eq_div_mul, Nat.add_sub_add_left, Nat.mul_comm v, Nat.mul_add_div (Nat.two_pow_pos k),
    Nat.div_eq_of_lt lt, Nat.add_zero]

/-- A field of a packed word is read at the bits above the fields before it. -/
theorem bitsOf_packed {l t : List Field} (i : Nat) {k hi lo : Nat} {x : BitVec (k + 1)}
    (field : l.drop i = ⟨k + 1, x⟩ :: t) (low : widths (l.take i) = lo) (high : lo + k = hi) : bitsOf (packed l) hi lo = x.toNat := by
  subst high low
  induction i generalizing l with
  | zero =>
    obtain rfl : l = ⟨k + 1, x⟩ :: t := field
    show bitsOf (packed t * 2 ^ (k + 1) + x.toNat) (0 + k) 0 = x.toNat
    rw [Nat.zero_add]
    exact (congrArg (· % 2 ^ (k + 1)) (Nat.div_one _)).trans (Nat.mul_add_mod_of_lt x.isLt)
  | succ i ih =>
    cases l with
    | nil => cases field
    | cons f l =>
      have above := bitsOf_above (v := packed l) f.2.isLt (widths (l.take i) + k) (widths (l.take i))
      rw [← Nat.add_assoc, ih field] at above
      exact above

/-- The sum of fields, each at its place from bit `s` on. -/
def placed (s : Nat) : List Field → Nat
  | [] => 0
  | f :: l => placed (s + f.1) l + f.2.toNat * 2 ^ s

theorem placed_eq (s : Nat) (l : List Field) : placed s l = packed l * 2 ^ s := by
  induction l generalizing s with
  | nil => exact (Nat.zero_mul _).symm
  | cons f l ih =>
    show placed (s + f.1) l + f.2.toNat * 2 ^ s = (packed l * 2 ^ f.1 + f.2.toNat) * 2 ^ s
    rw [ih, Nat.add_mul, Nat.mul_assoc, ← Nat.pow_add, Nat.add_comm s]

theorem num_lt (h : Half) : h.num < 2 ^ 1 := by induction h <;> decide

/-- The fields of a journal entry above its transaction. -/
def top (e : JEntry) : List Field := [⟨32, .ofNat 32 e.jseq⟩, ⟨32, e.old⟩, ⟨32, e.new⟩, ⟨64, .ofNat 64 e.time⟩]

/-- The fields of a journal entry above its gap. -/
def high (e : JEntry) : List Field := ⟨16, .ofNat 16 e.txn⟩ :: top e

/-- The fields of a journal entry above its lowest bit. -/
def upper (e : JEntry) : List Field :=
  ⟨12, .ofNat 12 e.page⟩ :: ⟨10, .ofNat 10 e.word⟩ :: ⟨8, .ofNat 8 e.org⟩ :: ⟨3, .ofNat 3 e.cls⟩ :: ⟨3, .ofNat 3 e.result⟩ :: ⟨43, 0⟩ :: high e

/-- The fields of a journal entry, from its lowest bit. -/
def fields (e : JEntry) : List Field := ⟨1, .ofNatLT e.half.num (num_lt e.half)⟩ :: upper e

theorem placed_gap (l : List Field) : placed 37 (⟨43, 0⟩ :: l) = placed 80 l :=
  (congrArg (placed 80 l + ·) (Nat.zero_mul _)).trans (Nat.add_zero _)

theorem placed_top (e : JEntry) : placed 96 (top e) =
    e.time % 2 ^ 64 * 2 ^ 192 + e.new.toNat * 2 ^ 160 + e.old.toNat * 2 ^ 128 + e.jseq % 2 ^ 32 * 2 ^ 96 := by
  rw [← Nat.zero_add (e.time % 2 ^ 64 * 2 ^ 192)]
  rfl

theorem bits_eq_placed (e : JEntry) : e.bits = placed 1 (upper e) + e.half.num := by
  rw [JEntry.bits, ← placed_top]
  exact congrArg (· + e.result % 8 * 2 ^ 34 + e.cls % 8 * 2 ^ 31 + e.org % 256 * 2 ^ 23 + e.word % 1024 * 2 ^ 13 + e.page % 4096 * 2 +
    e.half.num) (placed_gap (high e)).symm

theorem bits_eq_packed (e : JEntry) : e.bits = packed (fields e) := by
  rw [bits_eq_placed, placed_eq]
  rfl

theorem bitsOf_bits {e : JEntry} (i : Nat) {k hi lo : Nat} {x : BitVec (k + 1)} {t : List Field}
    (field : (fields e).drop i = ⟨k + 1, x⟩ :: t)
    (low : widths ((fields e).take i) = lo) (high : lo + k = hi) : bitsOf e.bits hi lo = x.toNat := by
  rw [bits_eq_packed]
  exact bitsOf_packed i field low high

set_option maxRecDepth 1000 in
theorem bits_lt (e : JEntry) : e.bits < 2 ^ 256 := by
  have total : widths (fields e) = 256 := rfl
  rw [bits_eq_packed, ← total]
  exact packed_lt (fields e)

theorem entry_fields (e : JEntry) : let b := bitsOf e.bits
    b 255 192 = e.time % 2 ^ 64 ∧ b 191 160 = e.new.toNat ∧ b 159 128 = e.old.toNat ∧ b 127 96 = e.jseq % 2 ^ 32 ∧
    b 95 80 = e.txn % 2 ^ 16 ∧ b 79 37 = 0 ∧ b 36 34 = e.result % 8 ∧ b 33 31 = e.cls % 8 ∧ b 30 23 = e.org % 256 ∧
    b 22 13 = e.word % 1024 ∧ b 12 1 = e.page % 4096 ∧ b 0 0 = e.half.num ∧ e.bits < 2 ^ 256 :=
  ⟨bitsOf_bits 11 rfl rfl rfl, bitsOf_bits 10 rfl rfl rfl, bitsOf_bits 9 rfl rfl rfl, bitsOf_bits 8 rfl rfl rfl, bitsOf_bits 7 rfl rfl rfl,
    bitsOf_bits 6 (x := 0) rfl rfl rfl, bitsOf_bits 5 rfl rfl rfl, bitsOf_bits 4 rfl rfl rfl, bitsOf_bits 3 rfl rfl rfl, bitsOf_bits 2 rfl rfl rfl,
    bitsOf_bits 1 rfl rfl rfl, bitsOf_bits 0 rfl rfl rfl, bits_lt e⟩

/-! ### The entries appended (R354 to R356) -/

/-- An entry put at the head of a half's ring, after a page of it is spilled or not. -/
def appended (d : Dev) (k : Half) (e : JEntry) (spill : Bool) : Dev := d.upd k fun x =>
  let c := if spill then spillOnce x.ctl else x.ctl
  { x with ctl := { c with
    journal := ({ e with time := if e.time = 0 then d.time % 2 ^ 64 else e.time, jseq := c.jseq + 1 } :: c.journal).take 65536
    jseq := c.jseq + 1
    unspilled := min (c.unspilled + 1) 65536 } }

/-- A ring with room, of a complex that runs, takes the entry with the next number and the time. -/
theorem jAppend_head {d : Dev} {k : Half} (running : (d.half k).boot.running = true) (room : (d.half k).ctl.unspilled < 65536)
    (e : JEntry) : ((d.jAppend k e).half k).ctl.journal.head? = some { e with
      time := if e.time = 0 then d.time % 2 ^ 64 else e.time, jseq := (d.half k).ctl.jseq + 1 } := by
  have notFull : decide (65536 ≤ (d.half k).ctl.unspilled) = false := decide_eq_false (Nat.not_le.mpr room)
  have lose : ¬(decide (65536 ≤ (d.half k).ctl.unspilled) && !d.spillOk k) = true := by
    rw [notFull]
    exact Bool.false_ne_true
  have append : d.jAppend k e = appended d k e (_ && _) := eq_else (eq_else rfl (not_not running)) lose
  rw [append, notFull, appended, upd_half]
  rfl

theorem journal_pageJseq (d : Dev) (h k : Half) (f : HalfState → SMap Word) :
    ((d.upd h fun x => { x with ctl := { x.ctl with pageJseq := f x } }).half k).ctl.journal = (d.half k).ctl.journal := by
  induction h <;> induction k <;> rfl

/-- The number of a page's last change is noted beside the ring. -/
theorem journal_ring {d : Dev} {org : Origin} {h : Half} {page off r : Nat} {old new : Word} {txn : Nat} (k : Half) :
    ((d.journal org h page off r old new txn).half k).ctl.journal = ((d.jAppend (d.ringHalf h) {
      time := 0, new := new, old := old, jseq := 0, txn := txn, result := r, cls := (d.orgCode org).1, org := (d.orgCode org).2
      word := off / 4, page := page, half := h }).half k).ctl.journal :=
  ite_keeps (part := fun d : Dev => (d.half k).ctl.journal) (journal_pageJseq ..) rfl

/-- Settles O50: the fields by the place of each in the entry's bits, and the entry appended by the head of the ring. -/
theorem journalEntries : Obligations.JournalEntries := by
  refine ⟨entry_fields, rfl, fun d => ⟨fun _x => rfl, fun _x => rfl, fun _x => rfl, rfl, rfl, fun _x _y => rfl⟩,
    fun d org h page off r old new txn running room => ?_, fun _x _y _z _w _v _u _t => ⟨rfl, rfl⟩⟩
  rw [journal_ring, jAppend_head running room]
  rfl

end Sys2Proof.Machine.JournalProof
end

section
/-! PROOFS. Castling (R357 to R363): what a commit does where it is decided, the writes of `CAST.CMD`, the exchange over the Ford, and the
I3C bus's resets. -/

namespace Sys2Proof.Machine.CastlingProof
open BeyondRegisters

/-! ### Where a commit is decided (R360, R361) -/

/-- A transaction that stages no copy of `RTC_ALARM` has none to add. -/
theorem alarmPair_of_no_alarm {d : Dev} {t : Txn} (none_ : ∀ x ∈ t.staged, alarmKey x.2.1 = false) : d.alarmPair t = t := by
  have empty : (t.staged.filter fun e => alarmKey e.2.1 && !(t.staged.any fun f => f.1 == e.1.other && f.2.1 == e.2.1)) = [] :=
    List.filter_eq_nil_iff.mpr fun e he => by simp only [none_ e he, Bool.false_and, Bool.false_eq_true, not_false_eq_true]
  simp only [Dev.alarmPair, empty, List.map_nil, List.append_nil, ite_self]

section
variable {d : Dev} {h : Half} {i : Nat} {t : Txn}

/-- The device with the transaction of a slot in its commit. -/
def committing (d : Dev) (h : Half) (i : Nat) (t : Txn) : Dev := d.updTxn i fun _x => { t with committing := true, coord := h }

/-- What a commit does with a transaction of a size that it may have. -/
def sized (e : Dev) (h : Half) (i : Nat) (t : Txn) : Dev :=
  if e.jFull (e.ringHalf h) || (t.touches h.other && e.jFull (e.ringHalf h.other)) then e.castClose i .abortFull false
  else match e.castJudge h i t with
    | some (st, err, js) => e.castClose i st false err js
    | none =>
      let target := if e.sails h then e.castTarget h else (e.half h).sail.current
      if t.touches h.other then (e.updTxn i fun t => { t with target := target }).fordSend h (.castPrepare t.id target)
      else
        let e := e.updTxn i fun t => { t with target := target, voted := true, otherKnows := true }
        if e.sails h then e else e.castApplyDue h

/-- What a commit does with the transaction in its slot, rule by rule. -/
def decided (e : Dev) (h : Half) (i : Nat) (t : Txn) : Dev :=
  if t.staged.isEmpty && !t.overSize then (e.castClose i .committed true).raise h pgCAST .castCommitted t.id
  else if t.overSize then e.castClose i .abortSize false
  else sized e h i t

theorem castCommit_decided : d.castCommit h i t = decided (committing d h i (d.alarmPair t)) h i (d.alarmPair t) := rfl

theorem castCommit_eq (noAlarm : ∀ x ∈ t.staged, alarmKey x.2.1 = false) : d.castCommit h i t = decided (committing d h i t) h i t := by
  rw [castCommit_decided, alarmPair_of_no_alarm noAlarm]

variable {e : Dev}

theorem decided_empty (empty : t.staged = []) (size : t.overSize = false) :
    decided e h i t = (e.castClose i .committed true).raise h pgCAST .castCommitted t.id :=
  if_pos (by rw [empty, size]; rfl)

/-- A transaction that stages something, or more than it may, is not an empty one. -/
theorem not_empty (some_ : t.staged ≠ [] ∨ t.overSize = true) : ¬(t.staged.isEmpty && !t.overSize) = true := by
  rw [Bool.and_eq_true, List.isEmpty_iff, Bool.not_eq_true']
  rintro ⟨empty, size⟩
  exact some_.elim (· empty) fun big => Bool.false_ne_true (size.symm.trans big)

theorem decided_overSize (size : t.overSize = true) : decided e h i t = e.castClose i .abortSize false :=
  (if_neg (not_empty (.inr size))).trans (if_pos size)

variable (staged : t.staged ≠ []) (size : t.overSize = false)
include staged size

theorem decided_sized : decided e h i t = sized e h i t := (if_neg (not_empty (.inl staged))).trans (if_neg (by rw [size]; decide))

theorem decided_full (full : e.jFull (e.ringHalf h) = true) : decided e h i t = e.castClose i .abortFull false :=
  (decided_sized staged size).trans (if_pos (by rw [full]; rfl))

variable (room : ∀ k, e.jFull k = false)
include room

theorem decided_judged {st : CastState} {err js : Word} (bad : e.castJudge h i t = some (st, err, js)) :
    decided e h i t = e.castClose i st false err js := by
  rw [decided_sized staged size, sized, room, room, Bool.and_false, bad]
  rfl

theorem decided_asks (other : t.touches h.other = true) (sails : e.sails h = true) (good : e.castJudge h i t = none) :
    decided e h i t = (e.updTxn i fun t => { t with target := e.castTarget h }).fordSend h (.castPrepare t.id (e.castTarget h)) := by
  rw [decided_sized staged size, sized, room, room, good, other, sails]
  rfl

end

/-- Settles O48: the first rule that applies decides a commit. -/
theorem commitDecisions : Obligations.CommitDecisions := by
  intro d h i t noAlarm e
  rw [castCommit_eq noAlarm]
  exact ⟨decided_empty, decided_overSize, decided_full, fun st err js staged size room bad => decided_judged staged size room bad,
    decided_asks⟩

/-! ### `CAST.CMD` (R357, R361, R362) -/

section
variable {org : Origin} {h : Half} {s : State} (here : org.via h = h) (free : s.dev.accBusy h org = false)
include here free

/-- A write of `CAST.CMD` whose path is free goes by the gate of its half. -/
theorem castWrite_here {v : Nat} (pass : s.dev.gate org h h pgCAST 0x040 (v % 16 != 2) = .pass) :
    castWrite org h v s = .next { s with dev := (s.dev.castDo org h v).settleT } := by
  have here' : (org.via h != h && s.dev.fordUp (org.via h)) = false := by rw [here, bne_self_eq_false, Bool.false_and]
  refine settled_eq ((if_neg (by rw [here, free]; exact Bool.false_ne_true)).trans
    ((if_neg (by rw [here']; exact Bool.false_ne_true)).trans ?_))
  rw [here, Dev.castLocal, pass]

end

section
variable {d : Dev} {org : Origin} {h : Half}

/-- Origins that may open a transaction. -/
def mayBegin : Origin → Bool
  | .ld _ | .hw _ => false
  | _ => true

/-- `CAST_BEGIN` takes the free slot that there is, and the next id. -/
def begun (d : Dev) (org : Origin) (h : Half) : Option Nat → Dev
  | none => d.castRefuse org h 1 .full
  | some i =>
    let id := castId d.cast.count
    (({ d with cast := { d.cast with
      slots := d.cast.slots.set i (some { org := org, id := id, beginW := d.west.ctl.jseq, beginE := d.east.ctl.jseq })
      count := id } } : Dev).journal org h pgCAST 0x040 rCOMMAND 0 (loWord 1) id).castView
        { org := org, state := .opened, staged := 0, txn := id }

theorem castDo_one : d.castDo org h 1 =
    if !(mayBegin org) || (d.cast.slots.findIdx? fun s => s.any fun t => t.org == org).isSome then d.castRefuse org h 1 .refused
    else begun d org h (d.cast.slots.findIdx? fun s => s.isNone) := rfl

theorem mayBegin_of {org : Origin} (notLd : ∀ n, org ≠ .ld n) (notHw : ∀ n, org ≠ .hw n) : mayBegin org = true := by
  induction org with
  | ld n => exact absurd rfl (notLd n)
  | hw n => exact absurd rfl (notHw n)
  | host | bmc | fw => rfl

theorem castDo_begin {i : Nat} (notLd : ∀ n, org ≠ .ld n) (notHw : ∀ n, org ≠ .hw n)
    (none_ : (d.cast.slots.findIdx? fun t => t.any fun t => t.org == org) = none)
    (slot : (d.cast.slots.findIdx? fun t => t.isNone) = some i) : d.castDo org h 1 = begun d org h (some i) :=
  (eq_else castDo_one (by rw [mayBegin_of notLd notHw, none_]; decide)).trans (congrArg (begun d org h) slot)

/-- The transaction that COMMIT and ROLLBACK act on: the origin's OPEN one, with its slot. -/
def mine (d : Dev) (org : Origin) : Option (Nat × Txn) := (d.openTxn org).bind fun i => (d.cast.slots.getD i none).map fun t => (i, t)

theorem mine_of_open {i : Nat} {t : Txn} (opened : d.openTxn org = some i) (slot : d.cast.slots.getD i none = some t) :
    mine d org = some (i, t) := by
  rw [mine, opened, Option.bind_some, slot]
  rfl

theorem mine_of_none (none_ : d.openTxn org = none) : mine d org = none := by
  rw [mine, none_]
  rfl

/-- What a command does to the transaction it acts on, or without one. -/
def onMine (act : Nat → Txn → Dev) (no : Dev) : Option (Nat × Txn) → Dev
  | some (i, t) => act i t
  | none => no

section
variable {x : Option (Nat × Txn)} (acts : mine d org = x)
include acts

theorem castDo_commit : d.castDo org h 2 = onMine (fun i t => (d.journal org h pgCAST 0x040 rCOMMAND 0 (loWord 2) t.id).castCommit h i t)
    (d.castRefuse org h 2 .refused) x := by
  subst acts
  rfl

theorem castDo_rollback : d.castDo org h 3 =
    onMine (fun i t => (d.journal org h pgCAST 0x040 rCOMMAND 0 (loWord 3) t.id).castClose i .rolledBack true)
      (d.castRefuse org h 3 .refused) x := by
  subst acts
  rfl

end

end

theorem castCommands : Claim.CastCommands := by
  intro org h s here free d reach shown
  have runs {c : Instr} {v : Nat} {x : Dev} (row : exec c s = castWrite org h v s)
      (pass : s.dev.gate org h h pgCAST 0x040 (v % 16 != 2) = .pass) (does : s.dev.castDo org h v = x) : Runs c s x.settleT :=
    row.trans ((castWrite_here here free pass).trans (settled_eq does))
  refine ⟨fun pass => ⟨?ld, fun i notLd notHw none_ slot => runs (v := 1) rfl pass (castDo_begin notLd notHw none_ slot),
      fun i t opened slot => runs (v := 3) rfl pass (castDo_rollback (mine_of_open opened slot)),
      fun none_ => runs (v := 3) rfl pass (castDo_rollback (mine_of_none none_))⟩,
    fun pass => ⟨fun i t opened slot => runs (v := 2) rfl pass (castDo_commit (mine_of_open opened slot)),
      fun none_ => runs (v := 2) rfl pass (castDo_commit (mine_of_none none_))⟩⟩
  case ld =>
    rintro ⟨n, rfl⟩
    exact runs (v := 1) rfl pass (eq_then castDo_one rfl)

/-! ### The exchange over the Ford (R361) -/

section
variable {h : Half} {s : State} {id i : Nat} {t : Txn} {d : Dev} (small : id < 65536)
include small

/-- PREPARE is checked and voted on. -/
theorem castPrepare_votes {n : Nat} (take : s.dev.fordTake h 0 FordMsg.isCastPrepare = some (.castPrepare id n, d))
    (slot : d.txnOf id = some (i, t)) :
    Runs (.castPrepare h) s ((d.fordSend h (.castVote id (d.castCan h && (d.castJudge h.other i t).isNone))).settleT) := by
  refine settled_eq ?_
  beta_reduce
  rw [take]
  refine (if_neg (Nat.not_le.mpr small)).trans ?_
  rw [slot]

/-- A vote for it decides the transaction. -/
theorem castVote_applies (take : s.dev.fordTake h 0 FordMsg.isCastVote = some (.castVote id true, d)) (slot : d.txnOf id = some (i, t))
    (first : t.voted = false) (sails : ((d.updTxn i fun t => { t with voted := true }).fordSend h (.castApply id true)).sails h = true) :
    Runs (.castVote h) s ((d.updTxn i fun t => { t with voted := true }).fordSend h (.castApply id true)).settleT := by
  refine settled_eq ?_
  beta_reduce
  rw [take]
  refine (if_neg (Nat.not_le.mpr small)).trans ?_
  rw [slot]
  exact (if_neg (by rw [first]; exact Bool.false_ne_true)).trans (if_pos sails)

/-- A vote against it ends it. -/
theorem castVote_aborts (take : s.dev.fordTake h 0 FordMsg.isCastVote = some (.castVote id false, d)) (slot : d.txnOf id = some (i, t))
    (first : t.voted = false) (good : d.castJudge h i t = none) :
    Runs (.castVote h) s (((d.castClose i .abortCheck false).fordSend h (.castApply id false)).settleT) := by
  refine settled_eq ?_
  beta_reduce
  rw [take]
  refine (if_neg (Nat.not_le.mpr small)).trans ?_
  rw [slot]
  refine (if_neg (by rw [first]; exact Bool.false_ne_true)).trans ?_
  rw [good]
  rfl

theorem castApply_holds (take : s.dev.fordTake h 0 FordMsg.isCastApply = some (.castApply id true, d)) (slot : d.txnOf id = some (i, t))
    (sails : (d.updTxn i fun t => { t with otherKnows := true }).sails h = true) :
    Runs (.castApply h) s (d.updTxn i fun t => { t with otherKnows := true }).settleT := by
  refine settled_eq ?_
  beta_reduce
  rw [take]
  refine (if_neg (Nat.not_le.mpr small)).trans ?_
  rw [slot]
  exact if_pos sails

end

/-! ### The end of a transaction (R361 step 6, R362) -/

/-- Closing a slot as COMMITTED on its origin's behalf empties it and shows the state. -/
theorem castClose_committed {d : Dev} {i : Nat} {t : Txn} (slot : d.cast.slots.getD i none = some t) :
    d.castClose i .committed true = ({ d with cast := { d.cast with slots := d.cast.slots.set i none } } : Dev).castView
      { org := t.org, state := .committed, staged := t.count, txn := t.id } := by
  simp only [Dev.castClose, slot, if_true]

theorem castClose_empties {d : Dev} {i : Nat} {t : Txn} (lt : i < d.cast.slots.length) (slot : d.cast.slots.getD i none = some t) :
    (d.castClose i .committed true).cast.slots.getD i none = none := by
  rw [castClose_committed slot]
  show (d.cast.slots.set i none).getD i none = none
  rw [List.getD_eq_getElem?_getD, List.getElem?_set_self lt]
  rfl

theorem viewOf_castView (d : Dev) (v : CastView) : (d.castView v).viewOf v.org = v := by
  refine congrArg (Option.getD · _) (List.find?_cons_of_pos ?_)
  exact beq_self_eq_true v.org

theorem castClose_shows {d : Dev} {i : Nat} {t : Txn} (slot : d.cast.slots.getD i none = some t) :
    (d.castClose i .committed true).viewOf t.org = { org := t.org, state := .committed, staged := t.count, txn := t.id } := by
  rw [castClose_committed slot]
  exact viewOf_castView ..

theorem viewOf_eq {d e : Dev} (q : e.cast = d.cast) (org : Origin) : e.viewOf org = d.viewOf org := by
  rw [Dev.viewOf, Dev.viewOf, q]

/-- What a transaction's record journals and puts into the charts. -/
def recorded (d : Dev) (t : Txn) : Dev :=
  let newOf (h : Half) (key : Nat) : Word := ((t.staged.find? fun e => e.1 == h && e.2.1 == key).map (·.2.2)).getD 0
  let d := t.olds.foldl (fun d e =>
    let w := newOf e.1 e.2.1
    if w = e.2.2 then d else d.journal t.org e.1 (e.2.1 / 1024) (e.2.1 % 1024 * 4) rCOMMITTED e.2.2 w t.id) d
  [Half.west, .east].foldl (fun d h => d.chartPut h ((t.staged.filter fun e => e.1 == h).map (·.2))) d

theorem cast_recorded (d : Dev) (t : Txn) : (recorded d t).cast = d.cast := by
  refine cast_eq (Eq.trans (beyond_foldl (fun _x _y => beyond_chartPut ..) _ _) (beyond_foldl (fun d e => ?_) _ d))
  dsimp only
  split
  · rfl
  · exact beyond_journal ..

theorem chartRecordDone_runs {s : State} {i : Nat} {t : Txn} (lt : i < s.dev.cast.slots.length)
    (slot : s.dev.cast.slots.getD i none = some t) (committing : t.committing = true) (voted : t.voted = true)
    (applied : t.allApplied = true) :
    ∃ d : Dev, Runs (.chartRecordDone i) s d ∧ d.cast.slots.getD i none = none ∧ (d.viewOf t.org).state = .committed ∧
      (d.viewOf t.org).txn = t.id := by
  have slot' : (recorded s.dev t).cast.slots.getD i none = some t := by rw [cast_recorded, slot]
  have run : Runs (.chartRecordDone i) s (((recorded s.dev t).castClose i .committed true).raise t.coord pgCAST .castCommitted t.id) := by
    refine next_eq (show s.dev.castFinish i = _ from ?_)
    rw [Dev.castFinish, slot]
    exact if_pos (by rw [committing, voted, applied]; rfl)
  have kept := cast_eq (beyond_raise ((recorded s.dev t).castClose i .committed true) t.coord pgCAST .castCommitted t.id 0)
  have view := (viewOf_eq kept t.org).trans (castClose_shows slot')
  exact ⟨_, run, (congrArg (·.slots.getD i none) kept).trans (castClose_empties (by rwa [cast_recorded]) slot'), congrArg (·.state) view,
    congrArg (·.txn) view⟩

theorem castTimeout_runs {s : State} {i : Nat} {t : Txn} (slot : s.dev.cast.slots.getD i none = some t) (opened : t.committing = false) :
    Runs (.castTimeout i) s (s.dev.castClose i .abortTimeout false) := by
  refine next_eq ?_
  beta_reduce
  rw [slot]
  exact if_neg (by rw [opened]; exact Bool.false_ne_true)

theorem castExchange : Claim.CastExchange := fun _x _y =>
  ⟨fun _x _y _z _w _v small => castPrepare_votes small, fun _x _y _z _w small => castVote_applies small,
    fun _x _y _z _w small => castVote_aborts small, fun _x _y _z _w small => castApply_holds small, rfl,
    fun _x _y => chartRecordDone_runs, fun _x _y => castTimeout_runs⟩

/-- Settles O47: the writes of `CAST.CMD` by what each finds, the exchange by the message that arrives. -/
theorem castlingCommands : Obligations.CastlingCommands := ⟨castCommands, castExchange⟩

/-! ### The I3C bus (R346, R357) -/

/-- Settles O55: East's target is there while the device is whole. -/
theorem i3cBus : Obligations.I3cBus := by
  intro s
  refine ⟨rfl, fun a => rfl, fun a whole => ?_⟩
  exact next_eq (if_neg (by rw [whole]; exact Bool.false_ne_true))

end Sys2Proof.Machine.CastlingProof
end

section
/-! PROOFS. Power failures and Last Ferry (R299 to R312, R327): PWRFAIL_N and the ride-through, the power commands, and steps 3 to 6. -/

namespace Sys2Proof.Machine.PowerProof
open BeyondRegisters

/-! ### A change of each half's power state -/

/-- A change of the power state of one half. -/
def updPwr (f : PwrHalf → PwrHalf) (d : Dev) (h : Half) : Dev := d.upd h fun x => { x with pwr := f x.pwr }

theorem single_updPwr (f : PwrHalf → PwrHalf) (d : Dev) (h : Half) : (updPwr f d h).single = d.single := single_upd d h rfl

@[simp] theorem pwr_updPwr (f : PwrHalf → PwrHalf) (d : Dev) (h : Half) : ((updPwr f d h).half h).pwr = f (d.half h).pwr :=
  congrArg (·.pwr) (upd_half ..)

theorem fld_updPwr (f : PwrHalf → PwrHalf) (d : Dev) (h : Half) (p o hi lo : Nat) : (updPwr f d h).fld h p o hi lo = d.fld h p o hi lo := by
  induction h <;> rfl

theorem eachPwr_eq (d : Dev) (f : PwrHalf → PwrHalf) : d.eachPwr f = d.eachHalf (updPwr f) := rfl

theorem halves_eachPwr (d : Dev) (f : PwrHalf → PwrHalf) : (d.eachPwr f).halves = d.halves := by
  simp only [Dev.halves, eachPwr_eq, single_eachHalf fun d h => single_updPwr f d h]

/-- A part of a half that the other half's change leaves is changed as by the half's own change, of a device where it is as it was. -/
theorem eachHalf_part {α : Type} (part : HalfState → α) {d : Dev} {f : Dev → Half → Dev} {h : Half} (mem : h ∈ d.halves)
    (other : ∀ d h k, k ≠ h → part ((f d h).half k) = part (d.half k)) :
    ∃ e : Dev, part (e.half h) = part (d.half h) ∧ part ((d.eachHalf f).half h) = part ((f e h).half h) := by
  unfold Dev.eachHalf
  obtain ⟨_, l⟩ | ⟨_, l⟩ := halves_cases d
  · rw [l] at mem ⊢
    obtain rfl := List.mem_singleton.mp mem
    exact ⟨d, rfl, rfl⟩
  · rw [l]
    induction h
    · exact ⟨d, rfl, other _ .east .west (by decide)⟩
    · exact ⟨f d .west, other _ .west .east (by decide), rfl⟩

/-- Two changes that agree on every half there is are one. -/
theorem eachPwr_congr {d : Dev} {f g : PwrHalf → PwrHalf} (q : ∀ h ∈ d.halves, f (d.half h).pwr = g (d.half h).pwr) :
    d.eachPwr f = d.eachPwr g := by
  have one (d : Dev) (h : Half) (e : f (d.half h).pwr = g (d.half h).pwr) : updPwr f d h = updPwr g d h :=
    upd_congr d h (by rw [e])
  rw [eachPwr_eq, eachPwr_eq, Dev.eachHalf, Dev.eachHalf]
  obtain ⟨_, l⟩ | ⟨_, l⟩ := halves_cases d
  · rw [l] at q ⊢
    exact one d .west (q .west (by decide))
  · rw [l] at q ⊢
    have east : ((updPwr g d .west).half .east).pwr = (d.half .east).pwr := rfl
    simp only [List.foldl_cons, List.foldl_nil]
    rw [one d .west (q .west (by decide)), one _ .east (by rw [east]; exact q .east (by decide))]

/-! ### PWRFAIL_N (R302, R303) -/

/-- The power state of a half after a glitch. -/
def glitched (p : PwrHalf) : PwrHalf := { p with pwrfailLow := false, rideThrough := false, inputBack := true }

/-- What a glitch does to a half in its ride-through. -/
def glitchHalf (d : Dev) (h : Half) : Dev :=
  if (d.half h).pwr.rideThrough then ((updPwr glitched d h).sat h pgPWRS 0x078).raise h pgPWRS .pwrfailGlitch else d

/-- Its count and event move no power state. -/
theorem pwr_noted (d : Dev) (h k : Half) : (((d.sat h pgPWRS 0x078).raise h pgPWRS .pwrfailGlitch).half k).pwr = (d.half k).pwr :=
  (pwr_eq (beyond_raise ..) k).trans (pwr_eq (beyond_sat ..) k)

theorem glitchHalf_pwr {d : Dev} {h : Half} (rides : (d.half h).pwr.rideThrough = true) :
    ((glitchHalf d h).half h).pwr = glitched (d.half h).pwr := by
  rw [glitchHalf, if_pos rides, pwr_noted, pwr_updPwr]

theorem glitchHalf_other (d : Dev) (h k : Half) (ne : k ≠ h) : ((glitchHalf d h).half k).pwr = (d.half k).pwr :=
  ite_keeps (part := fun d : Dev => (d.half k).pwr) ((pwr_noted ..).trans (congrArg (·.pwr) (upd_half_ne _ _ ne))) rfl

section
variable {s : State}

theorem pwrfailGlitch_ends (rides : ∀ h ∈ s.dev.halves, (s.dev.half h).pwr.rideThrough = true) :
    ∃ e : Dev, Runs .pwrfailGlitch s e ∧ ∀ h ∈ s.dev.halves,
      (e.half h).pwr.rideThrough = false ∧ (e.half h).pwr.pwrfailLow = false ∧ (e.half h).pwr.inputBack = true := by
  refine ⟨s.dev.eachHalf glitchHalf, rfl, fun h mem => ?_⟩
  obtain ⟨e, kept, own⟩ := eachHalf_part (·.pwr) mem glitchHalf_other
  rw [own, glitchHalf_pwr (by rw [kept]; exact rides h mem)]
  exact ⟨rfl, rfl, rfl⟩

theorem rideThroughExpiry_triggers
    (some_ : s.dev.halves.filter (fun h => (s.dev.half h).pwr.rideThrough && (s.dev.half h).pwr.pwrfailLow) ≠ []) :
    Runs .rideThroughExpiry s (((s.dev.eachPwr fun p => { p with rideThrough := false }).trigger 0
      (s.dev.halves.filter fun h => (s.dev.half h).pwr.rideThrough && (s.dev.half h).pwr.pwrfailLow)).settleT) := by
  exact settles_else rfl (by rwa [List.isEmpty_iff])

theorem inputPowerReturn_outside (calm : ∀ h ∈ s.dev.halves, (s.dev.half h).pwr.rideThrough = false) :
    Runs .inputPowerReturn s (s.dev.eachPwr fun p => { p with pwrfailLow := false, inputBack := true }) := by
  exact next_eq (eachPwr_congr fun h mem => if_neg (by rw [calm h mem]; decide))

end

theorem powerFailure : Claim.PowerFailure := fun _x =>
  ⟨rfl, pwrfailGlitch_ends, rideThroughExpiry_triggers, inputPowerReturn_outside⟩

/-! ### `PWRS.CMD` (R302, R327) -/

section
variable {d : Dev} {h : Half} {v : Nat}

theorem pwrsCmd_idle (cmd : v = 1 ∨ v = 2) (idle : ((d.together h).any fun k => d.inLf k) = false) :
    Dev.pwrsCmd h v d = some (d.trigger (v + 3) (d.together h)) := by
  obtain rfl | rfl := cmd
  · exact if_pos ⟨.inl rfl, by rw [idle]; rfl⟩
  · exact if_pos ⟨.inr rfl, by rw [idle]; rfl⟩

theorem pwrsCmd_running (running : ((d.together h).any fun k => d.inLf k) = true) : Dev.pwrsCmd h v d = none :=
  if_neg fun both => not_not running both.2

end

theorem powerCommands : Claim.PowerCommands := by
  intro org h s takes d running
  have runs {c : Instr} {v : Nat} {x : Dev} (row : exec c s = onDevT (fun d => d.command org h pgPWRS 0x04C v (Dev.pwrsCmd h v)) s)
      (does : s.dev.command org h pgPWRS 0x04C v (Dev.pwrsCmd h v) = x) : Runs c s x.settleT :=
    row.trans (settled_eq does)
  exact ⟨fun idle => runs rfl (FlashLog.command_of_act takes (pwrsCmd_idle (.inl rfl) idle)),
    fun idle => runs rfl (FlashLog.command_of_act takes (pwrsCmd_idle (.inr rfl) idle)),
    fun busy => runs rfl (FlashLog.command_of_no_act takes (pwrsCmd_running busy))⟩

/-- Settles O43: a pin's event by the change of each half, a command by its act. -/
theorem powerFailures : Obligations.PowerFailures := ⟨powerFailure, powerCommands⟩

/-! ### Last Ferry's steps 3 and 4 (R307) -/

section
variable {h : Half} {s : State} (running : (s.dev.half h).pwr.state = .lastFerry)
include running

/-- The step's own rule answers, since Last Ferry stands in the step. -/
theorem inStep {n : Nat} (step : (s.dev.half h).pwr.lfStep = n) :
    ¬((s.dev.half h).pwr.state != .lastFerry || (s.dev.half h).pwr.lfStep != n) = true := by
  rw [running, step, bne_self_eq_false, bne_self_eq_false]
  decide

/-- Nor has it answered before. -/
theorem inStep_first {n : Nat} (step : (s.dev.half h).pwr.lfStep = n) {done : Bool} (first : done = false) :
    ¬((s.dev.half h).pwr.state != .lastFerry || (s.dev.half h).pwr.lfStep != n || done) = true := by
  rw [first, Bool.or_false]
  exact inStep running step

end

/-- Step 5 follows once both the flush and the push have ended. -/
def five (x : HalfState) : HalfState :=
  if x.pwr.flushed && x.pwr.pushed then { x with pwr := { x.pwr with lfStep := 5 } } else x

theorem lfFive_half (d : Dev) (h : Half) (f : HalfState → HalfState) : ((d.upd h f).lfFive h).half h = five (f (d.half h)) :=
  (upd_half ..).trans (congrArg five (upd_half ..))

section
variable (x : HalfState)

theorem five_pushed : (five x).pwr.pushed = x.pwr.pushed := ite_keeps (part := fun x : HalfState => x.pwr.pushed) rfl rfl
theorem five_lf : (five x).pwr.lf = x.pwr.lf := ite_keeps (part := fun x : HalfState => x.pwr.lf) rfl rfl
theorem five_fery : (five x).fery = x.fery := ite_keeps (part := fun x : HalfState => x.fery) rfl rfl

theorem five_step {x : HalfState} (pushed : x.pwr.pushed = true) : (five x).pwr.lfStep = if x.pwr.flushed then 5 else x.pwr.lfStep := by
  rw [five, pushed, Bool.and_true]
  exact apply_ite (fun x : HalfState => x.pwr.lfStep) ..

end

theorem lastFerryDrains : Claim.LastFerryDrains := by
  intro h s running step d e ts
  refine ⟨fun first => runs_else rfl (inStep_first running step first),
    fun first => ⟨_, runs_else rfl (inStep_first running step first), ?_⟩⟩
  have half := lfFive_half s.dev h fun x => { x with
    fery := { x.fery.dropSession with link := .off, lanesUp := 0, stopSending := true, synced := false }
    pwr := { x.pwr with pushed := true, lf := { x.pwr.lf with unsent := lsum ((d.half h).fery.stream.map StreamMsg.lineCount) } } }
  refine ⟨(congrArg (·.pwr.pushed) half).trans (five_pushed _), (congrArg (·.pwr.lf.unsent) half).trans (congrArg (·.unsent) (five_lf _)),
    (congrArg (·.fery.link) half).trans (congrArg (·.link) (five_fery _)),
    (congrArg (·.pwr.lfStep) half).trans ((five_step ?_).trans ?_)⟩
  · rfl
  · exact congrArg (ite _ 5) step

/-! ### Last Ferry's steps 5 and 6 (R308, R310, R312) -/

/-- Islands that a step switches off are gated. -/
theorem gated_foldl {i : Nat} (lt : i < 22) (l : List Nat) (g : BitVec 22) (mem : i ∈ l ∨ g.getLsbD i = true) :
    (l.foldl (fun g i => g ||| BitVec.twoPow 22 i) g).getLsbD i = true := by
  induction l generalizing g with
  | nil => exact mem.resolve_left (List.not_mem_nil)
  | cons j l ih =>
    refine ih _ ?_
    simp only [BitVec.getLsbD_or, BitVec.getLsbD_twoPow, Bool.or_eq_true, Bool.and_eq_true, decide_eq_true_eq]
    rcases mem with mem | set
    · rcases List.mem_cons.mp mem with rfl | mem
      · exact .inr (.inr ⟨lt, rfl⟩)
      · exact .inl mem
    · exact .inr (.inl set)

/-- The power state with islands gated. -/
def gated (is : List Nat) (p : PwrHalf) : PwrHalf := { p with gated := is.foldl (fun g i => g ||| BitVec.twoPow 22 i) p.gated }

theorem lfGate_eq (d : Dev) (h : Half) (is : List Nat) : d.lfGate h is = updPwr (gated is) d h := rfl

/-- The evacuation ends with a change of the half that goes on to step 6, and its islands off. -/
theorem lfEvacuateDone_runs {h : Half} {s : State} (running : (s.dev.half h).pwr.state = .lastFerry) (fails : SMap Nat)
    (step : (s.dev.half h).pwr.lfStep = 5) :
    ∃ (e : Dev) (f : HalfState → HalfState), Runs (.lfEvacuateDone h fails) s ((e.upd h f).lfGate h [0, 1, 2, 3, 14]) ∧
      ∀ x, (f x).pwr.lfStep = 6 := ⟨_, _, runs_else rfl (inStep running step), fun _x => rfl⟩

theorem evacuation_ends {h : Half} {s : State} (running : (s.dev.half h).pwr.state = .lastFerry) (fails : SMap Nat)
    (step : (s.dev.half h).pwr.lfStep = 5) : ∃ e : Dev, Runs (.lfEvacuateDone h fails) s e ∧ (e.half h).pwr.lfStep = 6 ∧
      ∀ i ∈ [0, 1, 2, 3, 14], (e.half h).pwr.gated.getLsbD i = true := by
  obtain ⟨e, f, run, six⟩ := lfEvacuateDone_runs running fails step
  rw [lfGate_eq] at run
  refine ⟨_, run, ?_, fun i mem => ?_⟩
  · rw [pwr_updPwr]
    exact (congrArg (·.pwr.lfStep) (upd_half e h f)).trans (six _)
  · rw [pwr_updPwr]
    have lt : ∀ i ∈ [0, 1, 2, 3, 14], i < 22 := by decide
    exact gated_foldl (lt i mem) _ _ (.inl mem)

/-! ### The voyage record (R310) -/

/-- The record that step 6 writes, before its flags. -/
def voyageOf (d : Dev) (h : Half) (us : Nat) : Voyage := { (d.half h).pwr.lf with durationUs := us, bitmap := d.erasedStripes h }

/-- The power state that goes on to step 7, and holds the record if it is good. -/
def recorded (ok : Bool) (v : Voyage) (p : PwrHalf) : PwrHalf := { p with lfStep := 7, record := if ok then some v else p.record }

/-- A record with these flags. -/
def marked (v : Voyage) (fl : BitVec 8) : Voyage := { v with flags := fl }

/-- The power state with these flags in its record. -/
def flagged (v : Voyage) (fl : BitVec 8) (p : PwrHalf) : PwrHalf := { p with record := some (marked v fl) }

/-- The flags of a record: complete, and whether a warm return or mooring follows. -/
def voyageFlags (fl : BitVec 8) (warm moor : Bool) : BitVec 8 := fl ||| BitVec.ofNat 8 (1 + 16 * bnum warm + 32 * bnum (!warm && moor))

theorem voyageFlags_complete (fl : BitVec 8) (warm moor : Bool) : (voyageFlags fl warm moor).getLsbD 0 = true := by
  rw [voyageFlags, BitVec.getLsbD_or, Bool.or_eq_true]
  induction warm <;> induction moor <;> exact .inr rfl

theorem voyageFlags_warm (fl : BitVec 8) (warm moor : Bool) : (voyageFlags fl warm moor).getLsbD 4 = (fl.getLsbD 4 || warm) := by
  rw [voyageFlags, BitVec.getLsbD_or]
  induction warm <;> induction moor <;> rfl

/-- A warm return, by the power state and whether it is wanted. -/
def warm (p : PwrHalf) (wanted : Bool) : Bool :=
  p.inputBack && wanted && !p.offCause && !p.resetPending && ((p.record.map (·.complete)).getD false)

theorem warmOk_updPwr (f : PwrHalf → PwrHalf) (d : Dev) (h : Half) :
    (updPwr f d h).warmOk h = warm (f (d.half h).pwr) (d.fld h pgPWRS 0x040 2 2 == 1) := by
  show warm ((updPwr f d h).half h).pwr ((updPwr f d h).fld h pgPWRS 0x040 2 2 == 1) = _
  rw [pwr_updPwr, fld_updPwr]

/-- The flags written into a half's record, once it holds it. -/
def flagsOf (d : Dev) (h : Half) (v : Voyage) : BitVec 8 := voyageFlags v.flags (d.warmOk h) (d.moorOk h)

/-- The half with its record written and flagged, or without one, and its islands off. -/
def written (d : Dev) (h : Half) (ok : Bool) (v : Voyage) : Dev :=
  let e := updPwr (recorded ok v) d h
  updPwr (gated [10, 11, 12, 13, 16]) (if ok then updPwr (flagged v (flagsOf e h v)) e h else e) h

theorem voyageRecordWritten_runs {h : Half} {s : State} (running : (s.dev.half h).pwr.state = .lastFerry)
    (step : (s.dev.half h).pwr.lfStep = 6) (copies us : Nat) : Runs (.voyageRecordWritten h copies us) s
      ((written s.dev h ((s.dev.half h).pwr.lf.complete && decide (0 < copies)) (voyageOf s.dev h us)).lfJoin h).settleT :=
  settles_else rfl (inStep running step)

section
variable (d : Dev) (h : Half) (v : Voyage)

theorem written_pwr : ((written d h true v).half h).pwr =
    gated [10, 11, 12, 13, 16] (flagged v (flagsOf (updPwr (recorded true v) d h) h v) (recorded true v (d.half h).pwr)) := by
  rw [written, if_pos rfl, pwr_updPwr, pwr_updPwr, pwr_updPwr]

/-- Neither the flags of the record nor gated islands decide on a warm return. -/
theorem written_warm : (written d h true v).warmOk h = (updPwr (recorded true v) d h).warmOk h := by
  rw [written, if_pos rfl, warmOk_updPwr, warmOk_updPwr, fld_updPwr, fld_updPwr, pwr_updPwr, pwr_updPwr]
  rfl

theorem written_without : ((written d h false v).half h).pwr = gated [10, 11, 12, 13, 16] (recorded false v (d.half h).pwr) := by
  rw [written, if_neg Bool.false_ne_true, pwr_updPwr, pwr_updPwr]

end

theorem lastFerryRecords : Claim.LastFerryRecords := by
  intro h s running
  refine ⟨evacuation_ends running, fun copies us step => ?_⟩
  have run := voyageRecordWritten_runs running step copies us
  cases ok : (s.dev.half h).pwr.lf.complete && decide (0 < copies)
  case true =>
    rw [ok] at run
    have complete := Bool.and_elim_left ok
    have shown := written_pwr s.dev h (voyageOf s.dev h us)
    refine ⟨_, run, congrArg (·.lfStep) shown, fun _x _y =>
      ⟨marked (voyageOf s.dev h us) (flagsOf (updPwr (recorded true _) s.dev h) h _), congrArg (·.record) shown, complete, rfl, rfl, voyageFlags_complete .., ?_⟩,
      fun none_ => ?_⟩
    · rw [written_warm]
      exact voyageFlags_warm ..
    · obtain c | rfl := none_
      · exact absurd (complete.symm.trans c) Bool.false_ne_true.symm
      · exact absurd (of_decide_eq_true (Bool.and_elim_right ok)) (Nat.lt_irrefl 0)
  case false =>
    rw [ok] at run
    have shown := written_without s.dev h (voyageOf s.dev h us)
    refine ⟨_, run, congrArg (·.lfStep) shown, fun complete some_ => ?_, fun _x => congrArg (·.record) shown⟩
    rw [complete, decide_eq_true some_] at ok
    cases ok

/-- Settles O44: the flush and the push by their own rules, the evacuation and the record by what each leaves of its half. -/
theorem lastFerry : Obligations.LastFerry := ⟨lastFerryDrains, lastFerryRecords⟩

end Sys2Proof.Machine.PowerProof
end

section
/-! PROOFS. Starts (R301, R313, R321 to R325): the alarm, the up-sequence it begins, a cold start, re-arming, and idle gates. -/

namespace Sys2Proof.Machine.WakeProof
open BeyondRegisters PowerProof

/-! ### A change of each half -/

/-- What each change of a sequence leaves, the sequence leaves. -/
theorem foldl_keeps_of_mem {α β : Type} (part : Dev → α) {f : Dev → β → Dev} (l : List β)
    (q : ∀ b ∈ l, ∀ d, part (f d b) = part d) (d : Dev) : part (l.foldl f d) = part d := by
  induction l generalizing d with
  | nil => rfl
  | cons b l ih =>
    obtain ⟨first, rest⟩ := List.forall_mem_cons.mp q
    rw [List.foldl_cons, ih rest, first]

theorem foldl_keeps {α β : Type} (part : Dev → α) {f : Dev → β → Dev} (q : ∀ d b, part (f d b) = part d) (l : List β)
    (d : Dev) : part (l.foldl f d) = part d := foldl_keeps_of_mem part l (fun b _x d => q d b) d

theorem eachHalf_keeps {α : Type} (part : Dev → α) {f : Dev → Half → Dev} (q : ∀ d h, part (f d h) = part d) (d : Dev) :
    part (d.eachHalf f) = part d := foldl_keeps part q _ d

/-! ### The up-sequence begins (R374, R375) -/

/-- A half waits in reset for boot, after a wake of this cause. -/
def startHalf (cause : Nat) (d : Dev) (h : Half) : Dev := d.upd h fun x => { x with
  ford := { state := if x.ford.state == .absent then .absent else .training }
  pwr := { x.pwr with gated := 0, inReset := 0x1FFFFF, wakeCause := cause, waking := x.pwr.state == .moored } }

/-- The supervisor in its first step, with G1 enabled. -/
def upSupv (s : Supv) : Supv := ({ s with
  seq := .up, step := 1, faultHold := false, upPending := false, alarmDue := false, firstDone := false } : Supv).enable 1 true

theorem upStart_eq (d : Dev) (cause : Nat) : d.upStart cause = ({ d with supv := upSupv d.supv } : Dev).eachHalf (startHalf cause) := rfl

theorem single_startHalf (cause : Nat) (d : Dev) (h : Half) : (startHalf cause d h).single = d.single := by
  have absent (f : FordState) : ((if f == .absent then FordState.absent else .training) == .absent) = (f == .absent) := by induction f <;> rfl
  induction h
  · exact absent _
  · rfl

theorem startHalf_wakeCause (cause : Nat) (d : Dev) (h : Half) : ((startHalf cause d h).half h).pwr.wakeCause = cause := by
  induction h <;> rfl

theorem startHalf_other (cause : Nat) (d : Dev) {h k : Half} (ne : k ≠ h) : (startHalf cause d h).half k = d.half k := by
  rw [startHalf, upd_half_ne _ _ ne]

theorem upStart_supv (d : Dev) (cause : Nat) : (d.upStart cause).supv = upSupv d.supv :=
  eachHalf_keeps (·.supv) (fun d h => by induction h <;> rfl) _

theorem upStart_uptime (d : Dev) (cause : Nat) : (d.upStart cause).uptime = d.uptime :=
  eachHalf_keeps (·.uptime) (fun d h => by induction h <;> rfl) _

theorem upStart_time (d : Dev) (cause : Nat) : (d.upStart cause).time = d.time := eachHalf_keeps (·.time) (fun d h => by induction h <;> rfl) _

theorem upStart_halves (d : Dev) (cause : Nat) : (d.upStart cause).halves = d.halves := by
  simp only [Dev.halves, upStart_eq, single_eachHalf (single_startHalf cause)]
  rfl

/-- No register moves. -/
theorem upStart_reg (d : Dev) (cause : Nat) (h : Half) (p o : Nat) : (d.upStart cause).reg h p o = d.reg h p o := by
  refine eachHalf_keeps (fun d => d.reg h p o) (fun d k => ?_) _
  induction h <;> induction k <;> rfl

theorem upStart_wakeCause {d : Dev} (cause : Nat) {h : Half} (mem : h ∈ d.halves) :
    ((d.upStart cause).half h).pwr.wakeCause = cause := by
  obtain ⟨e, _, own⟩ := eachHalf_part (·.pwr.wakeCause) (d := { d with supv := upSupv d.supv }) (f := startHalf cause) mem
    fun d h k ne => congrArg (·.pwr.wakeCause) (startHalf_other cause d ne)
  rw [upStart_eq, own, startHalf_wakeCause]

/-! ### The alarm (R321) -/

theorem beyond_disarm (d : Dev) : beyond d.disarm = beyond d := beyond_eachHalf (fun _x _y => beyond_setReg ..) d

theorem disarm_west (d : Dev) (p o : Nat) :
    d.disarm.reg .west p o = (d.setReg .west pgPWRS 0x05C ((d.reg .west pgPWRS 0x05C).toNat % 2 ^ 31)).reg .west p o := by
  unfold Dev.disarm Dev.eachHalf
  obtain ⟨_, l⟩ | ⟨_, l⟩ := halves_cases d
  · rw [l, List.foldl_cons, List.foldl_nil]
  · rw [l, List.foldl_cons, List.foldl_cons, List.foldl_nil]
    exact reg_setReg_half _ _ _ _ _ _ (by decide)

theorem alarm_eq (d : Dev) :
    d.reg64 .west pgPWRS 0x058 = (d.reg .west pgPWRS 0x058).toNat + 2 ^ 32 * (d.reg .west pgPWRS 0x05C).toNat := rfl

theorem mod_alarm {lo : Nat} (lt : lo < 2 ^ 32) (hi : Nat) : (lo + 2 ^ 32 * hi) % 2 ^ 63 = lo + 2 ^ 32 * (hi % 2 ^ 31) := by
  rw [show 2 ^ 63 = 2 ^ 32 * 2 ^ 31 by rfl, Nat.mod_mul, Nat.add_mul_mod_self_left, Nat.mod_eq_of_lt lt,
    Nat.add_mul_div_left _ _ (Nat.two_pow_pos 32), Nat.div_eq_of_lt lt, Nat.zero_add]

/-- Disarming clears the alarm's top bit. -/
theorem disarm_alarm (d : Dev) : d.disarm.reg64 .west pgPWRS 0x058 = d.reg64 .west pgPWRS 0x058 % 2 ^ 63 := by
  have low := disarm_west d pgPWRS 0x058
  have high := disarm_west d pgPWRS 0x05C
  rw [reg_setReg_key _ _ _ (by decide)] at low
  rw [reg_setReg] at high
  have lt := (d.reg .west pgPWRS 0x058).isLt
  have fits (x : Nat) : x % 2 ^ 31 < 2 ^ 32 := (Nat.mod_lt x (by decide)).trans (by decide)
  rw [alarm_eq, alarm_eq, low, high, BitVec.toNat_ofNat, Nat.mod_eq_of_lt (fits _), mod_alarm lt]

section
variable {s : State} (whole : s.dev.split = false)
include whole

theorem rtcAlarm_unarmed (unarmed : s.dev.reg64 .west pgPWRS 0x058 < 2 ^ 63) (h : Half) : Runs (.rtcAlarm h) s s.dev := by
  refine runs_then rfl ?_
  rw [show (if s.dev.split then h else .west) = Half.west from if_neg (by rw [whole]; decide), decide_eq_true unarmed, Bool.or_true]

/-- The clocks moved on by `ns`. -/
def later (d : Dev) (ns : Nat) : Dev := { d with uptime := d.uptime + ns, time := d.time + ns }

/-- The alarm that comes due after `ns`: a stopped half of a split device wakes alone. -/
def wokenBy (h : Half) (d : Dev) (ns : Nat) : Dev :=
  let d := later d ns
  let st := (d.half h).pwr.state
  if d.split && d.supv.seq == .on && (st == .moored || st == .off) then d.wakeHalf h else d.alarmAct

variable (on : s.dev.supv.g0 = true)
include on

variable (armed : 2 ^ 63 ≤ s.dev.reg64 .west pgPWRS 0x058) (moored : s.dev.supv.seq = .moored) (sound : s.dev.supv.tripped = false)
  {h : Half} (mem : h ∈ s.dev.halves) {ns : Nat}
  (tick : (s.dev.reg64 .west pgPWRS 0x058 % 2 ^ 63 * 1000000000 + 32767) / 32768 - s.dev.uptime = ns)
include armed moored sound mem tick

theorem rtcAlarm_moored : Runs (.rtcAlarm h) s ((later s.dev ns).disarm.upStart 2) := by
  have governs : (if s.dev.split then h else .west) = Half.west := if_neg (by rw [whole]; decide)
  have goes : ¬(!(s.dev.halves.contains h) || !s.dev.supv.g0 || decide (s.dev.reg64 .west pgPWRS 0x058 < 2 ^ 63)) = true := by
    rw [List.contains_iff_mem.mpr mem, on, decide_eq_false (Nat.not_lt.mpr armed)]
    decide
  have run : Runs (.rtcAlarm h) s (if _ then s.dev else wokenBy h s.dev _) := rfl
  rw [governs, tick] at run
  refine (runs_else run goes).trans (next_eq ?_)
  have act : wokenBy h s.dev ns = (later s.dev ns).alarmAct :=
    eq_else rfl fun split => Bool.false_ne_true (whole.symm.trans (Bool.and_elim_left (Bool.and_elim_left split)))
  have up : ¬(s.dev.supv.tripped || !s.dev.supv.g0) = true := by
    rw [sound, on]
    decide
  exact act.trans (eq_then (eq_else rfl up) moored)

theorem rtcAlarm_wakes : ∃ d : Dev, Runs (.rtcAlarm h) s d ∧ d.uptime = s.dev.uptime + ns ∧ d.time = s.dev.time + ns ∧
    d.supv.seq = .up ∧ d.supv.step = 1 ∧ d.reg64 .west pgPWRS 0x058 = s.dev.reg64 .west pgPWRS 0x058 % 2 ^ 63 ∧
    ∀ k ∈ d.halves, (d.half k).pwr.wakeCause = 2 := by
  have same := beyond_disarm (later s.dev ns)
  have alarm := disarm_alarm (later s.dev ns)
  refine ⟨_, rtcAlarm_moored whole on armed moored sound mem tick, ?_, ?_, ?_, ?_, ?_, fun k mem => ?_⟩
  · rw [upStart_uptime]
    exact congrArg Dev.uptime same
  · rw [upStart_time]
    exact congrArg Dev.time same
  · rw [upStart_supv]
    rfl
  · rw [upStart_supv]
    rfl
  · rw [alarm_eq, upStart_reg, upStart_reg, ← alarm_eq, alarm]
    rfl
  · rw [upStart_halves] at mem
    exact upStart_wakeCause 2 mem

end

theorem alarmWakes : Claim.AlarmWakes := fun _x on whole =>
  ⟨rtcAlarm_unarmed whole, fun armed moored sound _x mem => rtcAlarm_wakes whole on armed moored sound mem rfl⟩

/-! ### A cold start (R313, R322, R324) -/

/-- A cold start by a record and a mooring list, where there are any. -/
def startBy (h : Half) (e : ColdEnv) (vr : Option Voyage) (waking : Bool) (save : Option Mooring) (d : Dev) : Dev :=
  let x := d.half h
  let d := d.nandCold h ((vr.map (·.bitmap)).getD [])
  let d : Dev := match save with
    | some m => d.replay h m.rws
    | none => d
  let d := if x.flash.formatted then d.replay h x.ctl.chart else d
  let d := d.replayActs h
  let d : Dev := match save with
    | some m => d.wakeDram h m
    | none => (d.trainDram h e).selfTest h e
  let d : Dev := if save.isSome then d else d.coldFrames h
  if d.dramFrames h < d.leastFrames h then
    ((d.upd h fun x => { x with
      pwr := { x.pwr with started := true, waking := false }
      tier := { x.tier with undersized := true }
      sail := { x.sail with current := d.topSailing h 0, sealed := d.topSailing h 0 } }).raise h pgMANF .manfUndersized).firstSailing.note
  else
    let d := d.startManf h e vr waking save.isSome
    let d := (vr.map (·.lines)).getD [] |>.foldl (Dev.lineBack h) d
    (d.keysBack h).openHalf h vr waking

/-- Without a record there is no mooring list to go by either. -/
theorem coldStart_runs {h : Half} {e : ColdEnv} {s : State} (may : s.dev.coldMay h = true) (record : (s.dev.half h).pwr.record = none)
    (awake : (s.dev.half h).pwr.waking = false) : Runs (.coldStart h e) s (startBy h e none false none s.dev).settleT := by
  have noRecord : (if e.recordBad then none else (s.dev.half h).pwr.record.filter (·.complete)) = none :=
    (congrArg (ite _ _ <| Option.filter _ ·) record).trans (ite_self _)
  have run : Runs (.coldStart h e) s (startBy h e _ _ _ s.dev).settleT := settles_else rfl (not_not may)
  rw [noRecord, awake] at run
  cases moor : (s.dev.half h).pwr.moor <;> rw [moor] at run <;> exact run

theorem coldStarts : Claim.ColdStarts := by
  intro h e s
  refine ⟨fun off => settles_then rfl (by rw [off]; rfl), fun may record awake => ?_⟩
  have run := coldStart_runs (e := e) may record awake
  exact ⟨settles_then run, fun enough => settles_else run (Nat.not_lt.mpr enough)⟩

/-! ### Re-arming and idle gates (R301, R325) -/

/-- The re-arming that ends: the reserve's stripes erased, and nothing left to move. -/
def rearmed (h : Half) (d : Dev) : Dev :=
  let d := ((d.reserveStripes h).map (·.1)).foldl (Dev.rearmErase h) d
  let d := d.upd h fun x => { x with pwr := { x.pwr with rearm := false, rearmLeft := 0 } }
  (d.lfNote h).raise h pgPWRS .rearmDone

/-- Re-arming moves these tiles, and ends where each had its page. -/
def rearming (h : Half) (d : Dev) (ts : List Nat) : Dev := match ts.foldl (Dev.rearmTile h) (some d) with
  | none => d
  | some d => rearmed h d

theorem rearmDone_runs {h : Half} {s : State} (rearm : (s.dev.half h).pwr.rearm = true)
    (moved : ∀ e ∈ (s.dev.half h).tier.manf, e.2.nand.toNat ≠ noNand → e.2.state ≠ .blank →
      (s.dev.stripe h (nandStripe e.2.nand.toNat)).use ≠ 3) : Runs (.rearmDone h) s (rearmed h s.dev).settleT := by
  have none_ : ((s.dev.half h).tier.manf.filter fun e => e.2.nand.toNat != noNand && e.2.state != .blank
      && (s.dev.stripe h (nandStripe e.2.nand.toNat)).use == 3) = [] := by
    refine List.filter_eq_nil_iff.mpr fun e mem left => ?_
    obtain ⟨both, reserve⟩ := (Bool.and_eq_true _ _).mp left
    exact moved e mem (bne_iff_ne.mp (Bool.and_elim_left both)) (bne_iff_ne.mp (Bool.and_elim_right both)) (beq_iff_eq.mp reserve)
  have run : Runs (.rearmDone h) s (rearming h s.dev (List.map _ (List.filter _ _))).settleT := settles_else rfl (not_not rearm)
  rwa [none_] at run

/-- A DDR island is not gated: no such island, no such setting, or a subchannel in use. -/
def idleStays (i set : Nat) (st : List SubState) : Bool :=
  decide (i < 4) || decide (9 < i) || set == 0 || !(st.contains .selfRefresh)
    || !(st.all fun x => [SubState.absent, .failed, .disabled, .selfRefresh].contains x)

theorem ddrIdleGate_runs {h : Half} {s : State} {i : Nat} (low : 4 ≤ i) (high : i ≤ 9) (may : s.dev.fld h pgPWRS 0x040 15 8 ≠ 0)
    (idle : ∀ k, k < 4 → (s.dev.sub h ((i - 4) * 4 + k)).state = .selfRefresh) :
    Runs (.ddrIdleGate h i) s (s.dev.setGates h ((s.dev.half h).pwr.gated ||| BitVec.twoPow 22 i)) := by
  have states : ((List.range 4).map fun k => (s.dev.sub h ((i - 4) * 4 + k)).state) = List.replicate 4 .selfRefresh :=
    List.map_congr_left fun k mem => idle k (List.mem_range.mp mem)
  have run : Runs (.ddrIdleGate h i) s (if idleStays i (s.dev.fld h pgPWRS 0x040 15 8) (List.map _ _) then s.dev
    else s.dev.setGates h ((s.dev.half h).pwr.gated ||| BitVec.twoPow 22 i)) := rfl
  rw [states] at run
  refine runs_else run ?_
  rw [idleStays, decide_eq_false (Nat.not_lt.mpr low), decide_eq_false (Nat.not_lt.mpr high), beq_eq_false_iff_ne.mpr may]
  decide

theorem rearmingAndIdleGates : Claim.RearmingAndIdleGates := fun _x _y =>
  ⟨fun rearm moved => rearmDone_runs rearm moved, fun _x low high may idle => ddrIdleGate_runs low high may idle⟩

/-- Settles O45: the alarm by what disarming and the up-sequence leave, the starts and gates by their own rules. -/
theorem wakesAndStarts : Obligations.WakesAndStarts := ⟨alarmWakes, coldStarts, rearmingAndIdleGates⟩

end Sys2Proof.Machine.WakeProof
end

section
/-! PROOFS. The supervisor (R365, R366, R373 to R379, R385, R387, R397): its sequences, G0, RESET_N, faults and counters. -/

namespace Sys2Proof.Machine.SupplyProof
open BeyondRegisters PowerProof WakeProof

theorem supv_eachPwr (d : Dev) (f : PwrHalf → PwrHalf) : (d.eachPwr f).supv = d.supv :=
  eachHalf_keeps (·.supv) (fun d h => upd_supv d h _) d

theorem or_no {p q : Bool} (no : p = false) (none_ : q = false) : (p || q) = false := by rw [no, none_]; rfl

/-! ### The up-sequence (R373 to R375) -/

/-- SEQ_IN high, and the input power back where PWRFAIL_N is not low. -/
def risen (d : Dev) : Dev := ({ d with supv := { d.supv with seqIn := true, faultHold := false } } : Dev).eachPwr fun p =>
  if p.pwrfailLow then p else { p with inputBack := true }

theorem risen_supv (d : Dev) : (risen d).supv = { d.supv with seqIn := true, faultHold := false } := supv_eachPwr ..

theorem risen_halves (d : Dev) : (risen d).halves = d.halves := halves_eachPwr ..

theorem startHalf_inReset (cause : Nat) (d : Dev) (h : Half) : ((startHalf cause d h).half h).pwr.inReset = 0x1FFFFF := by
  induction h <;> rfl

theorem upStart_inReset {d : Dev} (cause : Nat) {h : Half} (mem : h ∈ d.halves) : ((d.upStart cause).half h).pwr.inReset = 0x1FFFFF := by
  obtain ⟨e, _, own⟩ := eachHalf_part (·.pwr.inReset) (d := { d with supv := upSupv d.supv }) (f := startHalf cause) mem
    fun d _x _y ne => congrArg (·.pwr.inReset) (startHalf_other cause d ne)
  exact own.trans (startHalf_inReset cause e h)

theorem mayStart_idle {d : Dev} (on : d.supv.g0 = true) (sound : d.supv.tripped = false)
    (idle : d.supv.seq = .standby ∨ d.supv.seq = .off) : d.mayStart = true := by
  rw [Dev.mayStart, on, sound]
  obtain q | q := idle <;> rw [q] <;> rfl

theorem seqInRise_starts {s : State} (low : s.dev.supv.seqIn = false) (on : s.dev.supv.g0 = true) (sound : s.dev.supv.tripped = false)
    (idle : s.dev.supv.seq = .standby ∨ s.dev.supv.seq = .off) (calm : s.dev.supv.alarmDue = false) :
    Runs .seqInRise s ((risen s.dev).upStart 0) := by
  have supv := risen_supv s.dev
  have may : (risen s.dev).mayStart = true :=
    mayStart_idle ((congrArg Supv.g0 supv).trans on) ((congrArg Supv.tripped supv).trans sound) (by rw [supv]; exact idle)
  have noAlarm : (risen s.dev).supv.alarmDue = false := (congrArg Supv.alarmDue supv).trans calm
  exact (runs_else rfl (ne_true_of_eq_false low)).trans (next_eq (eq_else (eq_then rfl may) (ne_true_of_eq_false noAlarm)))

section
variable {s : State} {n : Nat} (a b : BitVec 32) (up : s.dev.supv.seq = .up) (step : s.dev.supv.step = n)
  (waits : s.dev.supv.good.getLsbD n = false)
include up step waits

theorem group_goes : ¬(s.dev.supv.seq != .up || s.dev.supv.step != n || s.dev.supv.good.getLsbD n) = true :=
  ne_true_of_eq_false (or_no (or_no (bne_eq_false_iff_eq.mpr up) (bne_eq_false_iff_eq.mpr step)) waits)

theorem groupGood_plain (not1 : n ≠ 1) (not6 : n ≠ 6) :
    Runs (.groupGood n a b) s (({ s.dev with supv := s.dev.supv.mark n true } : Dev).upNext n) :=
  (runs_else rfl (group_goes up step waits)).trans (next_eq (congrArg (Dev.upNext · n) (eq_else (if_neg not6) not1)))

theorem groupGood_first (first : n = 1) :
    Runs (.groupGood n a b) s (({ s.dev with supv := s.dev.supv.mark n true } : Dev).logHeld.upNext n) := by
  have goes := group_goes up step waits
  subst first
  exact runs_else rfl goes

end

/-- What an up-sequence does where group `m` is next. -/
def upTo (d : Dev) (m : Nat) : Dev :=
  if m = 8 then d
  else if m = 5 then { d with supv := { d.supv with seq := .holdRelease } }
  else { d with supv := ({ d.supv with step := m } : Supv).enable m true }

/-- After G4 the sequence waits for a release, unless G5 is still up. -/
theorem upNext_hold {d : Dev} (dark : d.supv.good.getLsbD 5 = false) :
    d.upNext 4 = { d with supv := { d.supv with seq := .holdRelease } } :=
  congrArg (upTo d) (if_neg (ne_true_of_eq_false dark) : (if d.supv.good.getLsbD 5 then 6 else 5) = 5)

theorem mark_dark {s : Supv} (dark : s.good.getLsbD 5 = false) : (s.mark 4 true).good.getLsbD 5 = false :=
  BitVec.getLsbD_or.trans (or_no dark rfl)

theorem seqOutDelay_runs {s : State} (up : s.dev.supv.seq = .up) (good : s.dev.supv.good.getLsbD s.dev.supv.step = true)
    (last : s.dev.nextGroup s.dev.supv.step = 8) : Runs .seqOutDelay s
      (({ s.dev with supv := { s.dev.supv with seq := .on, step := 0, seqOut := true } } : Dev).eachPwr fun p =>
        { p with state := .on, lfStep := 0 }) :=
  runs_else rfl (by rw [up, good, last]; decide)

section
variable {org : Origin} {h : Half} {off v : Nat} {act : Dev → Option Dev} {s : State}

/-- A command in West's page where its act goes through. -/
theorem supvWrite_acts {x : Dev} (takes : s.dev.takes org .west pgSUPV off = true)
    (does : act (s.dev.entry org .west pgSUPV off v) = some x) :
    supvWrite org .west off v act s = .next { s with dev := x } :=
  next_eq (FlashLog.command_of_act takes ((if_pos rfl).trans does))

/-- East's page refuses, and West's what the act refuses. -/
theorem supvWrite_refused (takes : s.dev.takes org h pgSUPV off = true)
    (no : h = .west → act (s.dev.entry org h pgSUPV off v) = none) :
    supvWrite org h off v act s = .next { s with dev := s.dev.refusal org h pgSUPV off v } := by
  refine next_eq (FlashLog.command_of_no_act takes ?_)
  induction h
  · exact (if_pos rfl).trans (no rfl)
  · rfl

end

theorem supvCtrl_release {d : Dev} (waits : d.supv.seq = .holdRelease) :
    Dev.supvCtrl 1 d = some { d with supv := ({ d.supv with seq := .up, step := 5 } : Supv).enable 5 true } :=
  eq_else rfl fun ⟨_, ne⟩ => ne waits

theorem upSequence : Claim.UpSequence := by
  intro s d
  refine ⟨fun low on sound idle calm => ?_, fun n a b up step _x waits => ?_, seqOutDelay_runs, fun org takes => ?_, fun org takes => ?_⟩
  · have supv : ((risen s.dev).upStart 0).supv = upSupv { s.dev.supv with seqIn := true, faultHold := false } := by
      rw [upStart_supv, risen_supv]
    have enabled : (s.dev.supv.en ||| BitVec.twoPow 8 1).getLsbD 1 = true := by rw [BitVec.getLsbD_or]; exact Bool.or_true _
    exact ⟨_, seqInRise_starts low on sound idle calm, congrArg Supv.seq supv, congrArg Supv.step supv,
      (congrArg (·.en.getLsbD 1) supv).trans enabled, congrArg Supv.seqIn supv,
      fun h mem => upStart_inReset 0 (risen_halves s.dev ▸ mem)⟩
  · refine ⟨groupGood_plain a b up step waits, groupGood_first a b up step waits, fun four dark => ?_⟩
    subst four
    have run := groupGood_plain a b up step waits (by decide) (by decide)
    exact run.trans (next_eq (upNext_hold (mark_dark dark)))
  · exact ⟨fun waits => supvWrite_acts takes (supvCtrl_release waits),
      fun busy => supvWrite_refused takes fun _x => if_pos ⟨rfl, busy⟩⟩
  · exact supvWrite_refused takes fun west => nomatch west

/-! ### The down-sequence (R376) -/

/-- SEQ_IN has fallen. -/
def inputOff (d : Dev) : Dev := { d with supv := { d.supv with seqIn := false, upPending := false } }

theorem inputLoss_up {s : State} (up : s.dev.supv.seq = .up ∨ s.dev.supv.seq = .holdRelease) :
    Runs .inputLoss s ((inputOff s.dev).downStart 0).settleT :=
  settles_then rfl up

theorem inputLoss_service {s : State} (on : s.dev.supv.seq = .on)
    (live : ((inputOff s.dev).halves.any fun h => (inputOff s.dev).live h) = true)
    (may : (inputOff s.dev).fld .west pgPWRS 0x040 1 1 = 1) :
    Runs .inputLoss s
      ((((inputOff s.dev).eachPwr fun p => { p with inputBack := false }).raise .west pgSUPV .inputLoss).trigger 1
        (inputOff s.dev).halves).settleT := by
  have off : ¬(s.dev.supv.seq = .up ∨ s.dev.supv.seq = .holdRelease) := by
    rw [on]
    decide
  refine (settles_else rfl off).trans (settled_eq (eq_else (eq_else (eq_then rfl on) (not_not live)) ?_))
  exact fun not_ => Nat.one_ne_zero (may.symm.trans not_)

theorem railFallen_runs {s : State} {n : Nat} (down : s.dev.supv.seq = .down) (head : s.dev.supv.down.head? = some n) :
    Runs (.railFallen n) s (s.dev.downPop n) :=
  runs_then rfl (by rw [down, head]; exact beq_self_eq_true _)

section
variable {s : State} {rail : Nat} (down : s.dev.supv.seq = .down) (lt : rail < 12) (off : s.dev.supv.en.getLsbD (railGroup rail) = false)
include down lt off

theorem fallSlow_runs : Runs (.fallSlow rail) s
    (let d := if s.dev.supv.downKind = 2 then s.dev else (s.dev.countFault rail 3).raise .west pgSUPV .fallSlow rail
     if d.supv.down.head? == some (railGroup rail) then d.downPop (railGroup rail) else d) :=
  runs_else rfl (ne_true_of_eq_false (or_no (or_no (bne_eq_false_iff_eq.mpr down) (decide_eq_false lt.not_ge)) off))

theorem fallSlow_pops (orderly : s.dev.supv.downKind ≠ 2)
    (head : ((s.dev.countFault rail 3).raise .west pgSUPV .fallSlow rail).supv.down.head? = some (railGroup rail)) :
    Runs (.fallSlow rail) s (((s.dev.countFault rail 3).raise .west pgSUPV .fallSlow rail).downPop (railGroup rail)) := by
  have run := fallSlow_runs down lt off
  rw [if_neg orderly] at run
  exact run.trans (next_eq (if_pos (beq_iff_eq.mpr head)))

theorem fallSlow_counts (orderly : s.dev.supv.downKind ≠ 2)
    (other : ((s.dev.countFault rail 3).raise .west pgSUPV .fallSlow rail).supv.down.head? ≠ some (railGroup rail)) :
    Runs (.fallSlow rail) s ((s.dev.countFault rail 3).raise .west pgSUPV .fallSlow rail) := by
  have run := fallSlow_runs down lt off
  rw [if_neg orderly] at run
  exact run.trans (next_eq (if_neg fun head => other (beq_iff_eq.mp head)))

theorem fallSlow_immediate (immediate : s.dev.supv.downKind = 2) (head : s.dev.supv.down.head? = some (railGroup rail)) :
    Runs (.fallSlow rail) s (s.dev.downPop (railGroup rail)) := by
  have run := fallSlow_runs down lt off
  rw [if_pos immediate] at run
  exact run.trans (next_eq (if_pos (beq_iff_eq.mpr head)))

end

theorem downSequence : Claim.DownSequence := by
  intro s d
  refine ⟨inputLoss_up, fun on live may => ?_, fun n down head => railFallen_runs down head, fun rail down lt off =>
    ⟨fallSlow_pops down lt off, fallSlow_counts down lt off, fallSlow_immediate down lt off⟩⟩
  have same : (((inputOff s.dev).eachPwr fun p => { p with inputBack := false }).raise .west pgSUPV .inputLoss).halves =
      (inputOff s.dev).halves :=
    (halves_eq (beyond_raise ..)).trans (halves_eachPwr ..)
  have run := inputLoss_service on live may
  rw [← same] at run
  exact run

/-! ### The always-on supply (R374, R385) -/

/-- The always-on supply comes good. -/
def g0Up (d : Dev) : Dev :=
  if d.supv.g0 then d
  else { d with uptime := 0, time := 0
                supv := { logSeq := d.supv.logSeq, logHead := d.supv.logHead, seqIn := d.supv.seqIn, resetN := d.supv.resetN } }

theorem g0Good_starts {s : State} (off : s.dev.supv.g0 = false) (whole : s.otp.west.config.getLsbD 0 = false) : Runs .g0Good s { s.dev with
    uptime := 0
    time := 0
    supv := { logSeq := s.dev.supv.logSeq, logHead := s.dev.supv.logHead, seqIn := s.dev.supv.seqIn, resetN := s.dev.supv.resetN } } :=
  next_eq ((congrArg g0Up (if_neg (ne_true_of_eq_false whole))).trans (if_neg (ne_true_of_eq_false off)))

theorem g0Up_single (d : Dev) : (g0Up d).single = d.single := ite_keeps rfl rfl

theorem g0Good_single {s : State} (fused : s.otp.west.config.getLsbD 0 = true) : ∃ d : Dev, Runs .g0Good s d ∧ d.single = true :=
  ⟨_, next_eq (congrArg g0Up (if_pos fused)), g0Up_single _⟩

/-- A half without its always-on supply. -/
def g0Lost (d : Dev) (h : Half) : Dev := (d.halfLose h false).upd h fun x => { x with
  ctl := { x.ctl with regs := x.ctl.regs.filter fun e => e.1 / 1024 == pgFERY, moorLog := [], evRaw := [] }
  pwr := { record := x.pwr.record, gated := 0x1FFFFF, pwrfailLow := x.pwr.pwrfailLow, inputBack := x.pwr.inputBack } }

/-- What of a half outlasts its always-on supply: the voyage record and the chart. -/
def lasting (x : HalfState) : Option Voyage × SMap Word := (x.pwr.record, x.ctl.chart)

/-- What of the device outlasts it: that, and the supervisor's part, which the loss takes at once. -/
def outlasts (d : Dev) : Supv × (Option Voyage × SMap Word) × (Option Voyage × SMap Word) := (d.supv, lasting d.west, lasting d.east)

theorem outlasts_halfLose (d : Dev) (h : Half) (moor : Bool) : outlasts (d.halfLose h moor) = outlasts d :=
  ite_keeps (part := outlasts) (by induction h <;> rfl) (by induction h <;> rfl)

theorem outlasts_g0Lost (d : Dev) (h : Half) : outlasts (g0Lost d h) = outlasts d :=
  Eq.trans (by induction h <;> rfl) (outlasts_halfLose d h false)

theorem lasting_half {d e : Dev} (same : outlasts e = outlasts d) (h : Half) : lasting (e.half h) = lasting (d.half h) := by
  induction h
  · exact congrArg (·.2.1) same
  · exact congrArg (·.2.2) same

theorem alwaysOnSupply : Claim.AlwaysOnSupply := by
  intro s
  have kept : outlasts (s.dev.eachHalf g0Lost) = outlasts s.dev := eachHalf_keeps outlasts outlasts_g0Lost s.dev
  exact ⟨g0Good_starts, g0Good_single, _, rfl, rfl, rfl, rfl, rfl, rfl, rfl, congrArg (·.1.logSeq) kept,
    fun h _x => Prod.mk.inj (lasting_half kept h)⟩

/-! ### RESET_N and the straps (R366, R397) -/

/-- RESET_N low, and high. -/
def resetPin (d : Dev) (high : Bool) : Dev := { d with supv := { d.supv with resetN := high } }

section
variable {s : State}

theorem resetNLow_moored (dead : ((resetPin s.dev false).halves.any fun h => (resetPin s.dev false).live h) = false)
    (moored : s.dev.supv.seq = .moored) : Runs .resetNLow s
      ((resetPin s.dev false).eachPwr fun p => if p.state = .moored then { p with resetIgnored := p.resetIgnored + 1 } else p).settleT :=
  (settles_else rfl (ne_true_of_eq_false dead)).trans (settled_eq (if_pos moored))

theorem resetNLow_service (live : ((resetPin s.dev false).halves.any fun h => (resetPin s.dev false).live h) = true)
    (idle : ∀ h, (resetPin s.dev false).inLf h = false) :
    let low := resetPin s.dev false
    let hs := low.halves.filter fun h => low.live h
    let e := low.eachPwr fun p => if p.state = .lastFerry then { p with resetPending := true } else p
    Runs .resetNLow s ((hs.foldl (fun d h => d.journal (.hw 21) h pgPWRS 0x04C rCOMMAND 0 1) e).startLf 4 hs).settleT := by
  intro low hs e
  have all : (low.halves.filter fun h => low.live h && !(low.inLf h)) = hs :=
    List.filter_congr fun h _x => by rw [idle h, Bool.not_false, Bool.and_true]
  rw [← all]
  exact settles_then rfl live

theorem resetNHigh_single (low : s.dev.supv.resetN = false) (notMoored : s.dev.supv.seq ≠ .moored) (single : s.dev.single = true)
    (idle : ((resetPin s.dev true).halves.any fun h => (resetPin s.dev true).inLf h) = false)
    (dead : ((resetPin s.dev true).halves.any fun h => (resetPin s.dev true).live h) = false) (a b : BitVec 14) :
    Runs (.resetNHigh a b) s
      ((resetPin s.dev true).upd .west fun x => { x with strap := { pins := a, eff := strapEff s.otp.west a } }).settleT := by
  refine (settles_else rfl (ne_true_of_eq_false low)).trans (settled_eq (eq_then (eq_else (eq_else rfl ?_) ?_) single))
  · exact ne_true_of_eq_false idle
  · exact ne_true_of_eq_false (or_no dead (beq_eq_false_iff_ne.mpr notMoored))

end

theorem resetPins : Claim.ResetPin := fun _x =>
  ⟨resetNLow_moored, resetNLow_service, fun low notMoored single idle dead a b => resetNHigh_single low notMoored single idle dead a b,
    fun high _x _y => settles_then rfl high⟩

/-- Settles O52: each pin's and group's event by its own rule. -/
theorem supplySequences : Obligations.SupplySequences := ⟨upSequence, downSequence, alwaysOnSupply, resetPins⟩

/-! ### Supply faults (R377, R378, R385) -/

/-- The fault counted, and its group not good. -/
def faulted (d : Dev) (rail kind : Nat) : Dev :=
  let n := railGroup rail
  let d := d.countFault rail kind
  if n = 0 then d else { d with supv := d.supv.mark n false }

theorem faulted_seq (d : Dev) (rail kind : Nat) : (faulted d rail kind).supv.seq = d.supv.seq := by
  rw [faulted]
  split <;> rfl

/-- What a counted fault leads to in state `q` of the sequence. -/
def faultIn (q : SupvSeq) (d : Dev) (h : Half) (rail kind : Nat) : Dev :=
  match q with
  | .up | .holdRelease => ((d.firstFail h rail kind).faultOff rail kind).downStart 0
  | .on =>
    let d := (d.firstFail h rail kind).faultOff rail kind
    if (railGroup rail = 1 ∨ railGroup rail = 7) ∧ d.halves.any (fun k => d.live k) then d.startLf 3 d.halves else d.downStart 0
  | .moored => if railGroup rail = 0 ∨ railGroup rail = 5 then ((d.firstFail h rail kind).faultOff rail kind).downStart 0 else d
  | _ => d

section
variable {d : Dev} {h : Half} {rail kind : Nat} (lt : rail < 11) (known : kind < 4)
include lt known

/-- The rails below 11 are there, and the kinds below 4. -/
theorem fault_known : ¬(12 ≤ rail || 5 ≤ kind || (rail == 11 && d.fld .west pgSUPV 0x05C 31 31 == 0)) = true := by
  have rails : 12 ≤ rail → False := (lt.trans (by decide)).not_ge
  have kinds : 5 ≤ kind → False := (known.trans (by decide)).not_ge
  rw [decide_eq_false rails, decide_eq_false kinds, beq_eq_false_iff_ne.mpr lt.ne]
  exact Bool.false_ne_true

/-- A fault while the groups come up, unless it is an undervoltage of a group that is not good. -/
theorem fault_up (up : d.supv.seq = .up) (counts : kind = 0 → d.supv.good.getLsbD (railGroup rail) = true) :
    d.fault h rail kind = (((faulted d rail kind).firstFail h rail kind).faultOff rail kind).downStart 0 := by
  have counted : ¬((kind == 0 || kind == 4) && !(d.supv.good.getLsbD (railGroup rail))) = true := by
    rw [beq_eq_false_iff_ne.mpr known.ne, Bool.or_false, Bool.and_eq_true, beq_iff_eq]
    exact fun ⟨zero, bad⟩ => not_not (counts zero) bad
  have notDown : ¬(d.supv.seq = .down ∧ kind = 2) := by
    rw [up]
    exact fun ⟨q, _⟩ => nomatch q
  have run : d.fault h rail kind = faultIn (faulted d rail kind).supv.seq (faulted d rail kind) h rail kind :=
    eq_else (eq_else (eq_else rfl (fault_known lt known)) counted) notDown
  rw [run, faulted_seq, up]
  rfl

end

theorem fault_ignored {d : Dev} {h : Half} {rail : Nat} (lt : rail < 11) (bad : d.supv.good.getLsbD (railGroup rail) = false) :
    d.fault h rail 0 = d :=
  eq_then (eq_else rfl (fault_known lt (by decide))) (by rw [bad]; rfl)

section
variable {h : Half} {rail : Nat} {s : State} (mem : h ∈ s.dev.halves) (on : s.dev.supv.g0 = true)
include mem on

theorem supplyFault_runs : Runs (.supplyFault h rail 0) s (s.dev.fault h rail 0).settleT :=
  settles_then rfl (by rw [List.contains_iff_mem.mpr mem, on]; rfl)

end

theorem groupTimeout_runs {rail : Nat} {s : State} (up : s.dev.supv.seq = .up) (step : s.dev.supv.step = railGroup rail)
    (bad : s.dev.supv.good.getLsbD (railGroup rail) = false) :
    Runs (.groupTimeout (railGroup rail) rail) s (s.dev.fault .west rail 3).settleT :=
  settles_else rfl (ne_true_of_eq_false
    (or_no (or_no (or_no (bne_eq_false_iff_eq.mpr up) (bne_eq_false_iff_eq.mpr step)) bad) (bne_self_eq_false _)))

theorem supplyFaults : Claim.SupplyFaults := by
  intro h rail s mem lt on up
  have fault := supplyFault_runs (rail := rail) mem on
  refine ⟨fun good => ?_, fun bad => ?_, fun step bad => ?_, fun diode temp sound => ?_⟩
  · exact fault.trans (settled_eq (fault_up lt (by decide) up fun _x => good))
  · exact fault.trans (settled_eq (fault_ignored lt bad))
  · exact (groupTimeout_runs up step bad).trans (settled_eq (fault_up lt (by decide) up nofun))
  · exact runs_else rfl (by rw [sound, on]; decide)

/-! ### The fault counters (R379, R387) -/

theorem supvCtrl_clear (d : Dev) : Dev.supvCtrl 2 d = some { d.logCounts with supv := { d.logCounts.supv with counts := [] } } := rfl

theorem cntSel_rail {rail : Nat} (lt : rail < 12) (d : Dev) : Dev.cntSel rail d = some (d.setReg .west pgSUPV 0x080 rail) := by
  have low : rail % 16 = rail := Nat.mod_eq_of_lt (lt.trans (by decide))
  exact (if_pos (low.symm ▸ lt)).trans (congrArg (fun v => some (d.setReg .west pgSUPV 0x080 v)) low)

theorem cntSel_none {rail : Nat} (le : 12 ≤ rail) (lt : rail < 16) (d : Dev) : Dev.cntSel rail d = none :=
  if_neg ((Nat.mod_eq_of_lt lt).symm ▸ le.not_gt)

theorem supplyCounters : Claim.SupplyCounters := fun _x =>
  ⟨fun on => runs_then rfl on, fun _x takes => supvWrite_acts takes (supvCtrl_clear _), fun _x _y takes =>
    ⟨fun lt => supvWrite_acts takes (cntSel_rail lt _), fun le lt => supvWrite_refused takes fun _x => cntSel_none le lt _⟩⟩

/-- Settles O53: a fault in the up-sequence is counted and ends it, and a counter command by its act. -/
theorem supplyFaultsAndCounters : Obligations.SupplyFaultsAndCounters := ⟨supplyFaults, supplyCounters⟩

end Sys2Proof.Machine.SupplyProof
end

section
/-! PROOFS. The housekeeping round (R380 to R384): what it counts, what it shows, and its critical temperature. -/

namespace Sys2Proof.Machine.RoundProof
open BeyondRegisters WakeProof

/-! ### Tj is the hottest diode that takes part (R380) -/

theorem le_foldl_max (l : List Int) (a : Int) : a ≤ l.foldl max a ∧ ∀ v ∈ l, v ≤ l.foldl max a := by
  induction l generalizing a with
  | nil => exact ⟨le_refl a, nofun⟩
  | cons x l ih =>
    obtain ⟨start, each⟩ := ih (max a x)
    exact ⟨(le_max_left a x).trans start, List.forall_mem_cons.mpr ⟨(le_max_right a x).trans start, each⟩⟩

theorem le_roundTj (d : Dev) (h : Half) {diodes : List (Option Int)} {v : Int} (mem : some v ∈ diodes.take 24)
    (ok : diodeOk (some v) = true) : v ≤ d.roundTj h diodes := by
  obtain ⟨k, lt, read⟩ := List.getElem_of_mem mem
  rw [List.getElem_take] at read
  obtain ⟨shown, there⟩ := lt_min_iff.mp (List.length_take ▸ lt)
  have diode : diodes.getD k none = some v := (List.getD_eq_getElem _ _ there).trans read
  refine (le_foldl_max _ _).2 v (List.mem_filterMap.mpr ⟨k, List.mem_range.mpr shown, ?_⟩)
  rw [diode]
  exact if_pos ok

/-! ### What a round reads (R380 to R382) -/

/-- The keys of an array of words follow its first. -/
theorem regKey_array (p o i : Nat) : regKey p (o + 4 * i) = regKey p o + i :=
  (congrArg (p * 1024 + ·) (Nat.add_mul_div_left o i (by decide))).trans (Nat.add_assoc ..).symm

theorem reg_ite {c : Prop} [Decidable c] {a b : Dev} {h : Half} {q r : Nat} {w : Word} (yes : a.reg h q r = w) (no : b.reg h q r = w) :
    (if c then a else b).reg h q r = w :=
  ite_keeps (part := (Dev.reg · h q r)) yes no

section
variable (h : Half) (diodes : List (Option Int)) (volts currs drift : List Nat) (late : Bool) (d : Dev)

/-- The monitors' readings and their events. -/
def monitored : Dev :=
  let d := if late then (d.sat h pgHKU 0x044).raise h pgHKU .roundLate else d
  let d := ((volts.take 40).zipIdx.foldl (fun d e => d.setReg h pgHKU (0x080 + 4 * e.2) (e.1 % 65536)) d)
  let d := ((currs.take 8).zipIdx.foldl (fun d e => d.setReg h pgHKU (0x120 + 4 * e.2) (e.1 % 65536)) d)
  drift.foldl (fun d n => if n < 40 then d.raise h pgHKU .voltDrift n else d) d

/-- The diodes that take part in a round, and those that do not. -/
def diodesOf : List (Option Int) := (List.range 24).map fun k => diodes.getD k none
def excludedOf : BitVec 24 :=
  (diodesOf diodes).zipIdx.foldl (fun (m : BitVec 24) e => if diodeOk e.1 then m else m ||| BitVec.twoPow 24 e.2) 0

/-- The diodes' words. -/
def diodesShown : Dev :=
  let bytes := (diodesOf diodes).map fun t => if diodeOk t then byteOf (t.getD 0) else 0x80
  (List.range 6).foldl (fun d n =>
    d.setReg h pgTHRM (0x060 + 4 * n) ((List.range 4).foldl (fun v j => v + bytes.getD (4 * n + j) 0x80 * 256 ^ j) 0)) d

/-- Tj shown, and the diodes left out. -/
def tjShown (tj : Int) : Dev :=
  let held := decide (4 < ((diodesOf diodes).filter fun t => !(diodeOk t)).length)
  (d.setFld h pgTHRM 0x044 31 24 (byteOf tj)).upd h fun x => { x with thrm := { x.thrm with
    excluded := excludedOf diodes, held := held || x.pwr.failed.getLsbD 20 } }

/-- The greatest Tj, and the events of diodes and of Tj. -/
def tjNoted (was : BitVec 24) (tj : Int) : Dev :=
  let d := d.setReg h pgTHRM 0x04C (byteOf (max (sbyte (d.reg h pgTHRM 0x04C).toNat) tj))
  let d := (List.range 24).foldl (fun d k =>
    if (excludedOf diodes).getLsbD k && !(was.getLsbD k) then d.raise h pgTHRM .diodeFail (byteOf tj) k else d) d
  let warn := decide ((d.fld h pgTHRM 0x040 23 16 : Int) ≤ tj)
  let d := if warn && !((d.half h).thrm.warned) then d.raise h pgTHRM .tempWarn (byteOf tj) else d
  d.upd h fun x => { x with thrm := { x.thrm with warned := warn } }

/-- What the diodes show. -/
def tjRead : Dev :=
  let tj := d.roundTj h diodes
  tjNoted h diodes (tjShown h diodes (diodesShown h diodes d) tj) (d.half h).thrm.excluded tj

theorem roundRead_eq : d.roundRead h diodes volts currs drift late =
    tjRead h diodes (monitored h volts currs drift late (d.wrap32 h pgHKU 0x040)) := rfl

section
variable {q r : Nat} (below : regKey q r < regKey pgHKU 0x044)
include below

theorem monitor_reg (o i v : Nat) (le : regKey pgHKU 0x044 ≤ regKey pgHKU o) :
    (d.setReg h pgHKU (o + 4 * i) v).reg h q r = d.reg h q r := by
  refine reg_setReg_key _ _ _ (Nat.ne_of_lt ?_)
  rw [regKey_array]
  exact (below.trans_le le).trans_le (Nat.le_add_right ..)

/-- The monitors' words and counter lie above. -/
theorem monitored_reg : (monitored h volts currs drift late d).reg h q r = d.reg h q r := by
  have volt : regKey pgHKU 0x044 ≤ regKey pgHKU 0x080 := by decide
  have curr : regKey pgHKU 0x044 ≤ regKey pgHKU 0x120 := by decide
  rw [monitored, foldl_keeps (Dev.reg · h q r), foldl_keeps (Dev.reg · h q r), foldl_keeps (Dev.reg · h q r)]
  · exact reg_ite ((raise_reg ..).trans (reg_setReg_key _ _ _ below.ne)) rfl
  · exact fun d e => monitor_reg h d below 0x080 e.2 _ volt
  · exact fun d e => monitor_reg h d below 0x120 e.2 _ curr
  · exact fun d n => reg_ite (raise_reg ..) rfl

end

theorem diodesShown_reg {q r : Nat} (other : ∀ n < 6, regKey q r ≠ regKey pgTHRM (0x060 + 4 * n)) :
    (diodesShown h diodes d).reg h q r = d.reg h q r := by
  rw [diodesShown, foldl_keeps_of_mem (fun d => d.reg h q r)]
  exact fun _x mem _y => reg_setReg_key _ _ _ (other _ (List.mem_range.mp mem))

theorem updThrm_reg (f : HalfState → ThrmHalf) (q r : Nat) : (d.upd h fun x => { x with thrm := f x }).reg h q r = d.reg h q r := by
  induction h <;> rfl

theorem tjNoted_reg (was : BitVec 24) (tj : Int) {q r : Nat} (other : regKey q r ≠ regKey pgTHRM 0x04C) :
    (tjNoted h diodes d was tj).reg h q r = d.reg h q r := by
  refine (updThrm_reg ..).trans ((reg_ite (raise_reg ..) rfl).trans ?_)
  refine (foldl_keeps (·.reg h q r) (fun _x _y => reg_ite (raise_reg ..) rfl) ..).trans ?_
  exact reg_setReg_key _ _ _ other

theorem tjRead_count : (tjRead h diodes d).reg h pgHKU 0x040 = d.reg h pgHKU 0x040 := by
  rw [tjRead, tjNoted_reg _ _ _ _ _ (by decide), tjShown, updThrm_reg, Dev.setFld, reg_setReg_key _ _ _ (by decide), diodesShown_reg]
  decide

theorem roundRead_count :
    ((d.roundRead h diodes volts currs drift late).reg h pgHKU 0x040).toNat = ((d.reg h pgHKU 0x040).toNat + 1) % 2 ^ 32 := by
  rw [roundRead_eq, tjRead_count, monitored_reg _ _ _ _ _ _ (by decide)]
  exact (congrArg BitVec.toNat (reg_setReg ..)).trans (BitVec.toNat_ofNat ..)

/-- A round's readings move no Tj before it is shown. -/
theorem monitored_tj : (monitored h volts currs drift late (d.wrap32 h pgHKU 0x040)).tj h = d.tj h :=
  congrArg (fun w : Word => bitsOf w.toNat 31 24) ((monitored_reg _ _ _ _ _ _ (by decide)).trans (reg_setReg_key _ _ _ (by decide)))

theorem byteOf_lt (t : Int) : byteOf t < 2 ^ 8 := (BitVec.ofInt 8 t).isLt

/-- The top byte of a word, in a word that was wider. -/
theorem bitsOf_mod_top (v : Nat) : bitsOf (v % 2 ^ 32) 31 24 = v / 2 ^ 24 % 2 ^ 8 :=
  (congrArg (· % 2 ^ 8) (Nat.mod_mul_right_div_self v (2 ^ 24) (2 ^ 8))).trans (Nat.mod_mod ..)

theorem putBits_top {w v : Nat} (word : w < 2 ^ 32) (lt : v < 2 ^ 8) : putBits w 31 24 v = w % 2 ^ 24 + v * 2 ^ 24 := by
  have top : w / 2 ^ 24 % 2 ^ 8 = w / 2 ^ 24 := Nat.mod_eq_of_lt (Nat.div_lt_of_lt_mul word)
  show w - w / 2 ^ 24 % 2 ^ 8 * 2 ^ 24 + v % 2 ^ 8 * 2 ^ 24 = _
  rw [top, Nat.mod_eq_of_lt lt, ← Nat.mod_eq_sub_div_mul]

theorem setFld_top (d : Dev) (h : Half) (p o : Nat) {v : Nat} (lt : v < 2 ^ 8) : (d.setFld h p o 31 24 v).fld h p o 31 24 = v := by
  have low : (d.reg h p o).toNat % 2 ^ 24 / 2 ^ 24 = 0 := Nat.div_eq_of_lt (Nat.mod_lt _ (Nat.two_pow_pos 24))
  refine (congrArg (fun w : Word => bitsOf w.toNat 31 24) (reg_setReg ..)).trans ?_
  rw [BitVec.toNat_ofNat, bitsOf_mod_top, putBits_top (d.reg h p o).isLt lt, Nat.add_mul_div_right _ _ (Nat.two_pow_pos 24), low,
    Nat.zero_add, Nat.mod_eq_of_lt lt]

theorem tjRead_tj : (tjRead h diodes d).tj h = byteOf (d.roundTj h diodes) := by
  rw [Dev.tj, Dev.fld, tjRead, tjNoted_reg _ _ _ _ _ (by decide), tjShown, updThrm_reg]
  exact setFld_top _ _ _ _ (byteOf_lt _)

theorem roundRead_tj : (d.roundRead h diodes volts currs drift late).tj h = byteOf (d.roundTj h diodes) := by
  rw [roundRead_eq, tjRead_tj, Dev.roundTj, monitored_tj]
  rfl

end

/-- Settles O54: the round by its own rule, its count and Tj by what each part of the reading leaves, and 110 °C as the bound. -/
theorem housekeepingRounds : Obligations.HousekeepingRounds := by
  refine ⟨fun h diodes volts currs spd drift late s may => ⟨fun most => ?_, fun sixteenth => ?_⟩,
    fun h diodes volts currs drift late d => ⟨roundRead_count .., roundRead_tj .., ?_⟩, fun h was now d cool => ?_⟩
  · exact (settles_else rfl (not_not may)).trans (settled_eq (congrArg (Dev.critical · h _ _) (if_neg most)))
  · exact (settles_else rfl (not_not may)).trans (settled_eq (congrArg (Dev.critical · h _ _) (if_pos sixteenth)))
  · rintro t mem ok v rfl
    exact le_roundTj d h mem ok
  · exact if_pos (.inr (.inl cool))

end Sys2Proof.Machine.RoundProof
end
